-- ==== Sys2Proof/Word.lean ====
section
/-! DEFINITION. The word types of the SL-340 and nothing else: what the spec treats as bits is a
bit vector, what it treats as a number or a place in a table is a `Nat` or a `Fin`. -/

namespace Sys2Proof

/-- One byte of the card port or of a shelf line frame. -/
abbrev Byte := BitVec 8

/-- The place of an entry in the Circuit Table, 0..63 (R1). -/
abbrev Index := Fin 64

/-- A card slot of the shelf, 0..31 (spec/00_scope.md, "The shelf"). -/
abbrev CardSlot := BitVec 5

/-- A shelf-wide circuit number; 0 is invalid (Table 1-1). -/
abbrev Circuit := BitVec 16

/-- A restore key, 0..65535 (R3). Keys are compared as whole numbers (R31). -/
abbrev Key := BitVec 16

/-- A sum that stops at a limit (R26, R82). -/
def satAdd (limit a b : Nat) : Nat := min (a + b) limit

/-- A value moved into a range (R169). -/
def clamp (low high v : Nat) : Nat := max low (min high v)

end Sys2Proof
end

