-- ==== Sys2Proof/Config.lean ====
section
/-! DEFINITION. What the part's design fixes: the limits, capacities and times the spec states, and
the one value the spec leaves open (a constant with no body). -/

namespace Sys2Proof.Config

/-- The largest outage figure, "at least 1,048,575 ms" or unlimited (R24, R26, R29). -/
def figureCap : Nat := 1048575

/-- The value at which the outage counter T stops (R23). -/
def outageMax : Nat := 16777215

/-- The calibration figure at cold start (R22). -/
def nominalA : Nat := 2097

/-- The accepted range of a calibration window result (R20). -/
def calibrationMin : Nat := 1024

/-- The accepted range of a calibration window result (R20). -/
def calibrationMax : Nat := 4095

/-- A calibration window in ticks of the main clock (R20). -/
def windowTicks : Nat := 64

/-- The warm-up count at which the WAKE end is taken (R39). -/
def warmupCycles : Nat := 4096

/-- The start gap in recessive bit times (R51). -/
def startGap : Nat := 11

/-- The count of dominant bits in a row that must be passed for STUCK (R55). -/
def stuckBits : Nat := 2000

/-- Equal bits in a row that are a framing fault in the stuffed part of a frame (R53). -/
def stuffLimit : Nat := 6

/-- The longest frame body in bytes (R53, R140). -/
def bodyMax : Nat := 43

/-- Places of the Unit Queue (R133). -/
def unitPlaces : Nat := 96

/-- Places of the Delivery Queue (R152). -/
def deliveryPlaces : Nat := 32

/-- Places of the Notice Queue (R176). -/
def noticePlaces : Nat := 32

/-- Places of the Answer List (R103) and of the Drop List (R112). -/
def listPlaces : Nat := 64

/-- Places of the parameter buffer (R166). -/
def paramPlaces : Nat := 12

/-- Unanswered bids after which an origin is DEFERRED (R93, R95). -/
def missLimit : Nat := 3

/-- Sends after which a DROP is given up (R113). -/
def dropSends : Nat := 4

/-- No-receipt strikes at which an entry strikes out (R146). -/
def noReceiptLimit : Nat := 4

/-- Busy strikes at which an entry strikes out (R146). -/
def busyLimit : Nat := 64

/-- The main cycles of a highway frame (R117). -/
def frameCycles : Nat := 2048

/-- The tolerance of a sync in main cycles, either way (R117, R118). -/
def syncTolerance : Nat := 4

/-- The run count at which the highway becomes PRESENT (R117). -/
def syncRun : Nat := 16

/-- The missing count at which the highway becomes LOST (R118). -/
def missingLimit : Nat := 3

/-- Readings of $FF in a row that make a quiet check PASS (R126). -/
def quietReadings : Nat := 4

/-- The highway slots of a frame (R119). -/
def frameSlots : Nat := 256

/-- The value of a highway slot that no station drives (R123). -/
def idleSample : Byte := 0xFF#8

/-- The command codes of Table 10-3. -/
def commandCodes : List Byte :=
  [0x10, 0x11, 0x12, 0x1F, 0x20, 0x21, 0x22, 0x30, 0x31, 0x40, 0x41, 0x42, 0x43, 0x44]

/-- FREE VALUE (log entry 12). The outbound sample that a line channel holds after the `n`-th warm
WAKE end. The channel store is not in the retained memory of R43 and no rule rebuilds its outbound
half, so nothing is said of the value: this constant has no body. -/
opaque outboundAfterWake : Nat → Nat → Byte

end Sys2Proof.Config
end

