-- ==== Sys2Proof/Syntax.lean ====
section
/-! DEFINITION. The commands of the SL-340: one constructor of `Instr` for each row of
spec/opcode_table.json, and the frames and observations that are their operands. -/

namespace Sys2Proof

/-- The role of a half (Table 1-1): the origin bids, the far answers. -/
inductive Role where
  | origin | far
deriving DecidableEq, Repr

/-- The kind of a ROLL (Table 4-3). -/
inductive RollKind where
  | cold | warm
deriving DecidableEq, Repr

/-- The verdict of an ANSWER (section 4.2). -/
inductive Verdict where
  | match_ | matchParked | refuseUnknown | refuseDiscord | refuseExpired | refuseClash | refuseFailed
deriving DecidableEq, Repr

/-- The reason of a DROP (Table 4-3). -/
inductive DropReason where
  | cleared | expired | clash
deriving DecidableEq, Repr

/-- One signalling unit as a CARRY body carries it: sequence and 1 to 8 content bytes (Table 4-3). -/
structure SignalUnit where
  sequence : Byte
  content : List Byte
deriving DecidableEq, Repr

/-- What a ROLL says (Table 4-3). -/
structure Roll where
  kind : RollKind
  figure : BitVec 24
deriving DecidableEq, Repr

/-- What a BID says: the key of its header and its body (Tables 4-1, 4-3). -/
structure Bid where
  key : Key
  circuit : Circuit
  attempt : Nat
  fingerprint : BitVec 16
  figure : BitVec 24
deriving DecidableEq, Repr

/-- What an ANSWER says (Table 4-3). -/
structure Answer where
  circuit : Circuit
  attempt : Nat
  verdict : Verdict
  key : Key
deriving DecidableEq, Repr

/-- What a DROP says (Table 4-3). -/
structure Drop where
  circuit : Circuit
  reason : DropReason
deriving DecidableEq, Repr

/-- What a CARRY says: the key of its header and its body (Tables 4-1, 4-3). -/
structure Carry where
  key : Key
  circuit : Circuit
  units : List SignalUnit
deriving DecidableEq, Repr

/-- The five kinds of frame (Table 4-2). -/
inductive FrameBody where
  | roll (r : Roll)
  | bid (b : Bid)
  | answer (a : Answer)
  | drop (d : Drop)
  | carry (c : Carry)
deriving DecidableEq, Repr

/-- The addressee of a frame: $3F, every station, or one card slot (Table 4-1). -/
inductive Destination where
  | every
  | card (slot : CardSlot)
deriving DecidableEq, Repr

/-- A shelf line frame as the blocks behind the line controller see it (Table 4-1). -/
structure Frame where
  source : CardSlot
  dest : Destination
  body : FrameBody
deriving DecidableEq, Repr

/-- The receipt an addressee drives, or does not drive (R60). -/
inductive Receipt where
  | taken | busy
deriving DecidableEq, Repr

/-- How a frame to a card slot ended at its sender (Table 4-6). `outputFailed` is the LOST of R66 for
a transmitter that drove dominant and read recessive; `gap` is the gap count its receiver then has. -/
inductive SendOutcome where
  | taken | busy | noReceipt | lost
  | outputFailed (gap : Nat)
  | aborted
deriving DecidableEq, Repr

/-- How a ROLL ended at its sender (Table 4-6): a frame to $3F draws no receipt. -/
inductive RollOutcome where
  | sent | lost
  | outputFailed (gap : Nat)
  | aborted
deriving DecidableEq, Repr

/-- How far a frame of this station has gone on the line (section 4.5). -/
inductive SendPhase where
  | contending | sending | receipt
deriving DecidableEq, Repr

/-- The framing faults of R53. -/
inductive FramingCause where
  | sixEqual
  | bodyLength (n : Byte)
  | earlyDominant
deriving DecidableEq, Repr

/-- Whether the observer is handed a frame the receiver heard (R63) or one this station completed (R65). -/
inductive FrameOrigin where
  | heard | completed
deriving DecidableEq, Repr

/-- The line circuitry's filling of one outbound sample in a frame (R119): before which highway slot begins,
and with what. -/
structure SampleFill where
  slot : Byte
  sample : Byte
deriving DecidableEq, Repr

/-- What the outside brings in one highway frame (R119, R123): the filling of every outbound sample, by line
channel; and, by highway slot, the byte HDI carries where another station drives the slot, or none where no
other station does. -/
structure HighwayFrame where
  fills : Vector SampleFill 64
  others : Vector (Option Byte) 256
deriving DecidableEq, Repr

/-- The commands: one constructor for each row of spec/opcode_table.json. -/
inductive Instr where
  /-- POWER_ON (R35). -/
  | powerOn
  /-- HOLD_ENTRY (R36): how far at least the frame on the line has gone, and whether VRET is below 1.80 V (R44). -/
  | holdEntry (phase : SendPhase) (vretLow : Bool)
  /-- MAIN_OSCILLATOR_STOP (R36). -/
  | mainOscillatorStop
  /-- SUPPLY_UP_IN_HOLD (R38): `aux` aux ticks fell since the last command. -/
  | supplyUpInHold (aux : Nat)
  /-- SUPPLY_DOWN_IN_WAKE (R40): `aux` aux ticks fell since; whether VRET is below 1.80 V (R44). -/
  | supplyDownInWake (aux : Nat) (vretLow : Bool)
  /-- RETENTION_LOSS (R44). -/
  | retentionLoss
  /-- OUTAGE_COUNTER_SATURATED (R23). -/
  | outageCounterSaturated
  /-- WAKE_END (R41): `aux` aux ticks fell since; the levels of SS4..SS0, read at a cold start (R48). -/
  | wakeEnd (aux : Nat) (straps : CardSlot)
  /-- CALIBRATION_WINDOW_END (R20): the aux ticks counted in the window. -/
  | calibrationWindowEnd (count : Nat)
  /-- OFFER_POINT (R69). -/
  | offerPoint
  /-- SHELF_LINE_STUCK (R55). -/
  | shelfLineStuck
  /-- FRAMING_FAULT (R53): its cause, and the recessive bits in a row the line then shows. -/
  | framingFault (cause : FramingCause) (gap : Nat)
  /-- CRC_FAILURE (R59): the destuffed bytes before the CRC, the CRC read, the gap count. -/
  | crcFailure (bytes : List Byte) (crc : BitVec 16) (gap : Nat)
  /-- MALFORMED_FRAME (R57): the destuffed bytes before a good CRC, the gap count. -/
  | malformedFrame (bytes : List Byte) (gap : Nat)
  /-- FRAME_OBSERVED (R86). -/
  | frameObserved (origin : FrameOrigin) (f : Frame)
  /-- ROLL_COLD_RECEIVED (R84). -/
  | rollColdReceived (source : CardSlot) (figure : BitVec 24)
  /-- ROLL_WARM_RECEIVED (R85). -/
  | rollWarmReceived (source : CardSlot) (figure : BitVec 24)
  /-- BID_RECEIVED (R98). -/
  | bidReceived (source : CardSlot) (b : Bid)
  /-- ANSWER_RECEIVED (R106). -/
  | answerReceived (source : CardSlot) (a : Answer)
  /-- DROP_RECEIVED (R114). -/
  | dropReceived (source : CardSlot) (d : Drop)
  /-- CARRY_RECEIVED (R153). -/
  | carryReceived (source : CardSlot) (c : Carry)
  /-- BID_OUTCOME (R92). -/
  | bidOutcome (o : SendOutcome)
  /-- ANSWER_OUTCOME (R104). -/
  | answerOutcome (o : SendOutcome)
  /-- DROP_OUTCOME (R113). -/
  | dropOutcome (o : SendOutcome)
  /-- ROLL_OUTCOME (R83). -/
  | rollOutcome (o : RollOutcome)
  /-- CARRY_OUTCOME (R142). -/
  | carryOutcome (o : SendOutcome)
  /-- GATHER_CLOSE (R78). -/
  | gatherClose
  /-- SETTLE_TIMER_EXPIRY (R81). -/
  | settleTimerExpiry
  /-- ANSWER_TIMER_EXPIRY (R95). -/
  | answerTimerExpiry
  /-- DEFERRED_DEADLINE (R97): the entry whose deadline passes. -/
  | deferredDeadline (i : Index)
  /-- ABSENT_DEADLINE (R102): the entry whose deadline passes. -/
  | absentDeadline (i : Index)
  /-- OPEN_BID_EXPIRY (R87). -/
  | openBidExpiry
  /-- SYNC (R117, R118): main cycles since the last sync while LOST, since the start of the current
  frame while PRESENT; and what the outside brings in the frame that this sync starts. -/
  | sync (cycles : Nat) (frame : HighwayFrame)
  /-- SYNC_MISSING (R118): what the outside brings in the frame that starts at the expected instant. -/
  | syncMissing (frame : HighwayFrame)
  /-- RUN_TIMEOUT (R117). -/
  | runTimeout
  /-- QUIET_CHECK_RESULT (R127): the checker, and its reading: other than $FF, or its fourth $FF in a row. -/
  | quietCheckResult (checker : Fin 4) (reading : Byte)
  /-- SET_TIMING, command $10 (R169). -/
  | setTiming
  /-- SET_CLASS_LIMIT, command $11 (R170). -/
  | setClassLimit
  /-- SET_PACKING, command $12 (R171). -/
  | setPacking
  /-- START, command $1F (R172). -/
  | start
  /-- WRITE_ENTRY, command $20 (R7). -/
  | writeEntry
  /-- CLEAR_ENTRY, command $21 (R12). -/
  | clearEntry
  /-- READ_ENTRY, command $22 (R14). -/
  | readEntry
  /-- SUBMIT_UNIT, command $30 (R136). -/
  | submitUnit
  /-- CLEAR_CONDITION, command $31 (R160). -/
  | clearCondition
  /-- RESET_LATCH, command $40 (R180). -/
  | resetLatch
  /-- SET_ATTENTION, command $41 (R181). -/
  | setAttention
  /-- READ_ROSTER, command $42 (R173). -/
  | readRoster
  /-- READ_CAMPAIGN, command $43 (R174). -/
  | readCampaign
  /-- READ_FIGURES, command $44 (R175). -/
  | readFigures
  /-- UNKNOWN_COMMAND (R167): a code that names no command. -/
  | unknownCommand (code : Byte)
  /-- PARAM_WRITE (R166). -/
  | paramWrite (value : Byte)
  /-- RESULT_READ (R168). -/
  | resultRead
  /-- STATUS_READ (R165). -/
  | statusRead
  /-- NOTICE_READ (R177). -/
  | noticeRead
  /-- DELIVERY_READ (R158). -/
  | deliveryRead
  /-- IGNORED_WRITE (R164): the location, 2..7, and the byte written. -/
  | ignoredWrite (location : BitVec 3) (value : Byte)
  /-- CARD_RESET (R183). -/
  | cardReset
  /-- CARD_RESET_RELEASE (R183). -/
  | cardResetRelease
deriving DecidableEq, Repr

end Sys2Proof
end

