-- ==== Sys2Proof/WellFormed.lean ====
section
/-! DEFINITION. Which terms of `Instr` stand for a command the spec knows: the tests of R57 on the
fields of a frame that the types leave open, and the ranges of the other operands. -/

namespace Sys2Proof

/-- A unit of a CARRY: 1 to 8 content bytes (R57, test 6). -/
def SignalUnit.wf (u : SignalUnit) : Bool := 1 ≤ u.content.length && u.content.length ≤ 8

/-- A BID or ANSWER attempt is 1..3 (R57, test 6). -/
def attemptWf (n : Nat) : Bool := 1 ≤ n && n ≤ 3

/-- A circuit number is not 0 (R57, test 7). -/
def circuitWf (c : Circuit) : Bool := c != 0

/-- R57 for a BID. -/
def Bid.wf (b : Bid) : Bool := attemptWf b.attempt && circuitWf b.circuit

/-- R57 for an ANSWER. -/
def Answer.wf (a : Answer) : Bool := attemptWf a.attempt && circuitWf a.circuit

/-- R57 for a DROP. -/
def Drop.wf (d : Drop) : Bool := circuitWf d.circuit

/-- R57 for a CARRY: 1 to 4 units of 1 to 8 bytes. -/
def Carry.wf (c : Carry) : Bool :=
  1 ≤ c.units.length && c.units.length ≤ 4 && c.units.all SignalUnit.wf && circuitWf c.circuit

/-- R57 for a body. -/
def FrameBody.wf : FrameBody → Bool
  | .roll _ => true
  | .bid b => b.wf
  | .answer a => a.wf
  | .drop d => d.wf
  | .carry c => c.wf

/-- A ROLL goes to every station, every other kind to one card slot (R57, test 4). -/
def Frame.destWf (f : Frame) : Bool :=
  match f.body, f.dest with
  | .roll _, .every => true
  | .roll _, .card _ => false
  | _, .every => false
  | _, .card _ => true

/-- A frame that the receiver holds to be well formed (R57). -/
def Frame.wf (f : Frame) : Bool := f.destWf && f.body.wf

/-- A gap count below the start gap (R51): what stands after a bit that is no offer point. -/
def gapWf (gap : Nat) : Bool := gap < Config.startGap

/-- The operands of a framing fault: a body length above 43 (R53); no recessive bits in a row after
an early dominant bit (R62); none or six after six equal bits. -/
def framingWf (cause : FramingCause) (gap : Nat) : Bool :=
  match cause with
  | .sixEqual => gap == 0 || gap == 6
  | .bodyLength n => Config.bodyMax < n.toNat && gapWf gap
  | .earlyDominant => gap == 0

/-- A location with no write meaning: 2..7 (Table 10-1). -/
def ignoredWf (location : BitVec 3) : Bool := 2 ≤ location.toNat

/-- The outcome of a frame: the gap count of a failed output is a gap count. -/
def SendOutcome.wf : SendOutcome → Bool
  | .outputFailed gap => gapWf gap
  | _ => true

/-- The outcome of a ROLL: the gap count of a failed output is a gap count. -/
def RollOutcome.wf : RollOutcome → Bool
  | .outputFailed gap => gapWf gap
  | _ => true

/-- A command whose operands are in their ranges; one that is not changes nothing (DESIGN CHOICE, log entry 17). -/
def Instr.wf : Instr → Bool
  | .framingFault cause gap => framingWf cause gap
  | .crcFailure _ _ gap => gapWf gap
  | .malformedFrame _ gap => gapWf gap
  | .frameObserved _ f => f.wf
  | .bidReceived _ b => b.wf
  | .answerReceived _ a => a.wf
  | .dropReceived _ d => d.wf
  | .carryReceived _ c => c.wf
  | .bidOutcome o => o.wf
  | .answerOutcome o => o.wf
  | .dropOutcome o => o.wf
  | .carryOutcome o => o.wf
  | .rollOutcome o => o.wf
  | .unknownCommand code => !Config.commandCodes.contains code
  | .ignoredWrite location _ => ignoredWf location
  | .powerOn => true
  | .holdEntry _ _ => true
  | .mainOscillatorStop => true
  | .supplyUpInHold _ => true
  | .supplyDownInWake _ _ => true
  | .retentionLoss => true
  | .outageCounterSaturated => true
  | .wakeEnd _ _ => true
  | .calibrationWindowEnd _ => true
  | .offerPoint => true
  | .shelfLineStuck => true
  | .rollColdReceived _ _ => true
  | .rollWarmReceived _ _ => true
  | .gatherClose => true
  | .settleTimerExpiry => true
  | .answerTimerExpiry => true
  | .deferredDeadline _ => true
  | .absentDeadline _ => true
  | .openBidExpiry => true
  | .sync _ _ => true
  | .syncMissing _ => true
  | .runTimeout => true
  | .quietCheckResult _ _ => true
  | .setTiming => true
  | .setClassLimit => true
  | .setPacking => true
  | .start => true
  | .writeEntry => true
  | .clearEntry => true
  | .readEntry => true
  | .submitUnit => true
  | .clearCondition => true
  | .resetLatch => true
  | .setAttention => true
  | .readRoster => true
  | .readCampaign => true
  | .readFigures => true
  | .paramWrite _ => true
  | .resultRead => true
  | .statusRead => true
  | .noticeRead => true
  | .deliveryRead => true
  | .cardReset => true
  | .cardResetRelease => true

end Sys2Proof
end

