-- ==== Sys2Proof/Decode.lean ====
section
/-! DEFINITION. The rows of spec/opcode_table.json give no bits: every row's list of fields is empty
and no row has a fixed pattern, so no word spells a command. A command is an access, a strobe, a
frame, a pin event or a count that comes to its end, and it reaches the part through the queue. What a
write strobe at the card port is, by its location and its byte, the spec does give (Tables 10-1, 10-3). -/

namespace Sys2Proof

/-- The command that a word spells by the table's bits: none, since the table gives no row bits. -/
def decodeTableWord (nbits w : Nat) : Option Instr :=
  match nbits, w with
  | _, _ => none

/-- The command that a byte written to COMMAND names (R167, Table 10-3). -/
def commandOf (code : Byte) : Instr :=
  match code.toNat with
  | 0x10 => .setTiming
  | 0x11 => .setClassLimit
  | 0x12 => .setPacking
  | 0x1F => .start
  | 0x20 => .writeEntry
  | 0x21 => .clearEntry
  | 0x22 => .readEntry
  | 0x30 => .submitUnit
  | 0x31 => .clearCondition
  | 0x40 => .resetLatch
  | 0x41 => .setAttention
  | 0x42 => .readRoster
  | 0x43 => .readCampaign
  | 0x44 => .readFigures
  | _ => .unknownCommand code

/-- The command that a write strobe is: COMMAND at location 0, PARAM at 1, and no write meaning at the others
(R164, Table 10-1). -/
def writeAccess (location : BitVec 3) (value : Byte) : Instr :=
  match location.toNat with
  | 0 => commandOf value
  | 1 => .paramWrite value
  | _ => .ignoredWrite location value

end Sys2Proof
end

