-- ==== Sys2Proof/Machine/State.lean ====
section
/-! DEFINITION. The state of one SL-340, block by block as spec/00_scope.md names them ("Blocks of
the part"), with its values right after a cold start (Table 3-3). -/

namespace Sys2Proof.Machine

/-- No command of this part stops the machine: the spec gives every command an effect in every state,
so the part raises no fault and this type has no constructor. Safe: nothing can be lost in a fault. -/
inductive Fault where
deriving DecidableEq, Repr

/-- Why a command has no meaning in the model. -/
inductive Refusal where
  /-- Raised by an arm of `exec` whose command has no meaning yet. Safe: the machine stops by name. -/
  | notModelled (mnemonic : String)
deriving DecidableEq, Repr

/-! ### Circuit Table -/

/-- The nine states of an entry (Table 1-2), in the order of their codes (Table 1-6). -/
inductive EntryState where
  | empty | parked | live | pending | bidding | deferred | checking | joining | failed
deriving DecidableEq, Repr

/-- The reason of a failure record (R6, Table 1-6). -/
inductive FailReason where
  | expired | discord | clash | refused | dropped | lost | absent
deriving DecidableEq, Repr

/-- The far reason of a failure record (R6, Table 1-6). -/
inductive FarReason where
  | unknown | discord | expired | clash | failed | cleared
deriving DecidableEq, Repr

/-- A failure record: present if and only if the entry is FAILED (R6). -/
structure Failure where
  reason : FailReason
  far : Option FarReason
deriving DecidableEq, Repr

/-- One entry of the Circuit Table (Table 1-1). A deadline is a tick value (R80). -/
structure Entry where
  state : EntryState
  circuit : Circuit
  role : Role
  farSlot : CardSlot
  channel : BitVec 6
  txSlot : Byte
  rxSlot : Byte
  cls : BitVec 3
  ordinal : BitVec 13
  key : Key
  fingerprint : BitVec 16
  txSeq : Byte
  rxExpected : Byte
  attempt : Nat
  misses : Nat
  noReceipt : Nat
  busy : Nat
  late : Bool
  deadline : Option Nat
  failure : Option Failure
deriving DecidableEq, Repr

/-- An EMPTY entry: every field zero, no deadline, no failure record (R1). -/
def Entry.cleared : Entry :=
  { state := .empty, circuit := 0, role := .origin, farSlot := 0, channel := 0, txSlot := 0,
    rxSlot := 0, cls := 0, ordinal := 0, key := 0, fingerprint := 0, txSeq := 0, rxExpected := 0,
    attempt := 0, misses := 0, noReceipt := 0, busy := 0, late := false, deadline := none,
    failure := none }

/-! ### Supply Monitor -/

/-- The power states (R34). -/
inductive Power where
  | run | hold | wake
deriving DecidableEq, Repr

/-- The Supply Monitor. -/
structure SupplyMonitor where
  power : Power
  /-- The main oscillator runs (R36, R38). -/
  mainOsc : Bool
  /-- VDD rose to 2.90 V in HOLD while the main oscillator was still running (R36). -/
  upSeen : Bool
  /-- The warm-up count, 0..4096 (R38). -/
  warmup : Nat
  /-- Ticks of the calibration window in progress, or none where no window runs (R20, R22). -/
  window : Option Nat
  /-- The calibration figure A (R20). -/
  a : Nat
  /-- The outage counter T (R23). -/
  t : Nat
  /-- The last episode figure E (R25). -/
  e : Nat
  /-- The accumulated outage figure M (R26). -/
  m : Nat
  /-- The live value of CALIBRATION: FAULT (R20). -/
  calFault : Bool
  /-- The retention flag (R44). -/
  retention : Bool
deriving DecidableEq, Repr

/-! ### Relink Engine -/

/-- The campaign state (R73). -/
inductive Campaign where
  | steady | gather | contend
deriving DecidableEq, Repr

/-- The settle timer: stopped, running out at a tick, or run out (R81; DEDUCED, log entry 26). -/
inductive SettleTimer where
  | stopped
  | runsOutAt (tick : Nat)
  | runOut
deriving DecidableEq, Repr

/-- One record of the Peer Roster (R86): HEARD or not, and the last ROLL heard with its figure. -/
structure RosterRecord where
  heard : Bool
  roll : Option (RollKind × Nat)
deriving DecidableEq, Repr

/-- The open-bid record, where it holds a bid (R87). -/
structure OpenBid where
  circuit : Circuit
  origin : CardSlot
  far : CardSlot
  tick : Nat
deriving DecidableEq, Repr

/-- One item of the Answer List (R103). -/
structure AnswerItem where
  circuit : Circuit
  origin : CardSlot
  attempt : Nat
  verdict : Verdict
  key : Key
deriving DecidableEq, Repr

/-- One item of the Drop List (R112). -/
structure DropItem where
  circuit : Circuit
  far : CardSlot
  reason : DropReason
  sends : Nat
deriving DecidableEq, Repr

/-- The MODEL's own field (log entry 5): which half of an ANSWER's arrival has been taken, so that the
late test reads the front as it stood before this ANSWER in either order (R89, R108). -/
inductive Arrival where
  | none
  /-- The observer has had this ANSWER; the front as it stood before. -/
  | observed (source : CardSlot) (a : Answer) (frontBefore : Option Key)
  /-- The acting block has had this ANSWER. -/
  | acted (source : CardSlot) (a : Answer)
deriving DecidableEq, Repr

/-- The Relink Engine. Timers are the ticks at which they run out. -/
structure RelinkEngine where
  campaign : Campaign
  joined : Nat
  failed : Nat
  late : Nat
  gatherTimer : Option Nat
  settleTimer : SettleTimer
  answerTimer : Option Nat
  roster : Vector RosterRecord 32
  openBid : Option OpenBid
  front : Option Key
  answers : List AnswerItem
  drops : List DropItem
  pendingRoll : Option RollKind
  arrival : Arrival
deriving DecidableEq, Repr

/-! ### Shelf Line Controller -/

/-- The receiver's states (section 4.4). -/
inductive Receiver where
  | hunt | idle | receiving
deriving DecidableEq, Repr

/-- The transmit buffer's frame (R70); the entry it was composed from, where it is a BID or CARRY whose entry
has not been cleared since (R13); and how far it has gone. -/
structure TxFrame where
  frame : Frame
  entry : Option Index
  phase : SendPhase
deriving DecidableEq, Repr

/-- What this station drives on SLN (R50, R54): nothing, a frame, or the abort of eight dominant bits. -/
inductive LineDrive where
  | released | frame | abort
deriving DecidableEq, Repr

/-- Which of the two commands of an arrival have been taken (log entry 5): the observer's, the acting block's. -/
inductive ArrivalHalf where
  | observed | acted | both
deriving DecidableEq, Repr

/-- The intact frame heard whose receipt field is running (R60). `half` is the MODEL's own (log entry 5). -/
structure HeardFrame where
  frame : Frame
  half : ArrivalHalf
deriving DecidableEq, Repr

/-- The five states of the transmitter (section 4.5). -/
inductive Transmitter where
  | idle | contending | sending | receipt | silenced
deriving DecidableEq, Repr

/-- The Shelf Line Controller. -/
structure ShelfLine where
  receiver : Receiver
  /-- Recessive bits in a row, 0..11 (R51). -/
  gap : Nat
  /-- Dominant bits in a row (R55). -/
  dominant : Nat
  /-- The live value of SHELF LINE: STUCK (R55). -/
  stuck : Bool
  /-- The transmitter is SILENCED (R67); its other states stand in `buffer`. -/
  silenced : Bool
  buffer : Option TxFrame
  /-- The frame last completed, until it is handed to the observer (R65). -/
  completed : Option Frame
  drive : LineDrive
  /-- The receipt driven for the frame whose receipt field is running (R64). -/
  receipt : Option Receipt
  /-- The intact frame heard whose receipt field is running: the receiver is RECEIVING until it ends (Table 4-5). -/
  closing : Option HeardFrame
deriving DecidableEq, Repr

/-! ### Slot Switch -/

/-- The highway state (R117). -/
inductive Highway where
  | lost | present
deriving DecidableEq, Repr

/-- A quiet checker that is not idle (R126), with its sample count. `armed`: a frame has started since it took
the index. -/
structure Checker where
  index : Index
  samples : Nat
  armed : Bool
deriving DecidableEq, Repr

/-- The highway frame in progress: what the outside brings in it, and how many of its highway slots have
ended, 0..256 (R119; DESIGN CHOICE, log entry 11). -/
structure FrameTiming where
  frame : HighwayFrame
  slot : Nat
deriving DecidableEq, Repr

/-- The Slot Switch, with the card's channel store (R119). -/
structure SlotSwitch where
  highway : Highway
  runCount : Nat
  missing : Nat
  /-- The frame the part times while PRESENT. -/
  timing : Option FrameTiming
  checkQueue : List Index
  checkers : Vector (Option Checker) 4
  outbound : Vector Byte 64
  inbound : Vector Byte 64
deriving DecidableEq, Repr

/-! ### Release Engine and Delivery Unit -/

/-- One unit of the Unit Queue (R134); its length is that of its content. -/
structure QueuedUnit where
  entry : Index
  sequence : Byte
  content : List Byte
  inFlight : Bool
deriving DecidableEq, Repr

/-- One record of the Delivery Queue (R152); `gap` is the condition GAP. -/
structure DeliveryRecord where
  entry : Index
  circuit : Circuit
  sequence : Byte
  content : List Byte
  gap : Bool
deriving DecidableEq, Repr

/-- The Delivery Unit: its queue, and the DELIVERY read buffer, which holds the EMPTY marker where
`buffer` is `none` (R158). -/
structure DeliveryUnit where
  queue : List DeliveryRecord
  buffer : Option DeliveryRecord
  position : Nat
deriving DecidableEq, Repr

/-! ### Card Port -/

/-- The mode (section 10.3). -/
inductive Mode where
  | config | active
deriving DecidableEq, Repr

/-- The configuration (Table 10-5): G, W, P, Q, K and the eight class limits. -/
structure Settings where
  g : Nat
  w : Nat
  p : Nat
  q : Nat
  k : Nat
  limits : Vector Nat 8
deriving DecidableEq, Repr

/-- The kinds of notice (Table 10-6). -/
inductive NoticeKind where
  | joined | connected | failed | unitsDiscarded | dropUndelivered | campaignBegun | campaignEnded
deriving DecidableEq, Repr

/-- A notice record (Table 10-6). -/
structure Notice where
  kind : NoticeKind
  entry : Byte
  a : Byte
  b : Byte
deriving DecidableEq, Repr

/-- The four items of the status latch (Table 10-7), each `true` away from its good value. -/
structure LatchItems where
  stuck : Bool
  lost : Bool
  calFault : Bool
  clash : Bool
deriving DecidableEq, Repr

/-- The Card Port. -/
structure CardPort where
  mode : Mode
  settings : Settings
  params : List Byte
  overlength : Bool
  results : List Byte
  resultPos : Nat
  /-- The NOTICE read buffer: the EMPTY marker where `none` (R177). -/
  noticeBuffer : Option Notice
  noticePos : Nat
  notices : List Notice
  overflow : Bool
  latch : LatchItems
  latchPending : Bool
  /-- The attention mask: bit 0 notice, bit 1 delivery, bit 2 latch (R181). -/
  mask : BitVec 3
  /-- The level of CRST: held low (R183). -/
  crstLow : Bool
  /-- A falling edge on CRST recorded in HOLD or WAKE (R183). -/
  crstEdge : Bool
  /-- D7..D0: the byte the last read returned (section 10.1). -/
  dataOut : Byte
deriving DecidableEq, Repr

/-- The whole part. -/
structure State where
  table : Vector Entry 64
  supply : SupplyMonitor
  relink : RelinkEngine
  line : ShelfLine
  switch : SlotSwitch
  units : List QueuedUnit
  delivery : DeliveryUnit
  port : CardPort
  /-- The card slot number read from the straps at the last cold start (R48). -/
  cardSlot : CardSlot
  /-- The present tick (R80, R87), counted from the cold start; a warm wake leaves it as it stood (DESIGN CHOICE, log
  entry 30). -/
  now : Nat
  /-- The MODEL's own field (log entry 12): the number of warm wakes, which the free values are read by. -/
  freeCount : Nat
  /-- The commands that wait, first in first out. -/
  pending : List Instr
deriving DecidableEq, Repr

/-! ### The values after a cold start (Table 3-3) -/

/-- The configuration's defaults (Table 10-5). -/
def Settings.defaults : Settings :=
  { g := 200, w := 10, p := 5000, q := 100, k := 2, limits := Vector.replicate 8 60000 }

/-- The Supply Monitor after a cold start (R47). -/
def SupplyMonitor.cold : SupplyMonitor :=
  { power := .run, mainOsc := true, upSeen := false, warmup := 0, window := some 0,
    a := Config.nominalA, t := 0, e := 0, m := 0, calFault := false, retention := true }

/-- A record of the roster set to NONE (R86). -/
def RosterRecord.absent : RosterRecord := { heard := false, roll := none }

/-- The Relink Engine after a cold start (Table 3-3). -/
def RelinkEngine.cold : RelinkEngine :=
  { campaign := .steady, joined := 0, failed := 0, late := 0, gatherTimer := none,
    settleTimer := .stopped, answerTimer := none, roster := Vector.replicate 32 RosterRecord.absent,
    openBid := none, front := none, answers := [], drops := [], pendingRoll := none,
    arrival := .none }

/-- The Shelf Line Controller after a cold start (R72). -/
def ShelfLine.cold : ShelfLine :=
  { receiver := .hunt, gap := 0, dominant := 0, stuck := false, silenced := false, buffer := none,
    completed := none, drive := .released, receipt := none, closing := none }

/-- The Slot Switch after a cold start (R131). -/
def SlotSwitch.cold : SlotSwitch :=
  { highway := .lost, runCount := 0, missing := 0, timing := none, checkQueue := [],
    checkers := Vector.replicate 4 none, outbound := Vector.replicate 64 Config.idleSample,
    inbound := Vector.replicate 64 Config.idleSample }

/-- The Delivery Unit after a cold start (R163). -/
def DeliveryUnit.cold : DeliveryUnit := { queue := [], buffer := none, position := 0 }

/-- The latch record after a cold start (R179). -/
def LatchItems.cold : LatchItems := { stuck := false, lost := true, calFault := false, clash := false }

/-- The Card Port after a cold start (Table 3-3). -/
def CardPort.cold : CardPort :=
  { mode := .config, settings := Settings.defaults, params := [], overlength := false, results := [],
    resultPos := 0, noticeBuffer := none, noticePos := 0, notices := [], overflow := false,
    latch := LatchItems.cold, latchPending := false, mask := 0, crstLow := false, crstEdge := false,
    dataOut := 0xFF }

/-- The part right after a cold start with its straps at 0 (log entries 1 and 2), nothing waiting. -/
def State.reset : State :=
  { table := Vector.replicate 64 Entry.cleared, supply := .cold, relink := .cold, line := .cold,
    switch := .cold, units := [], delivery := .cold, port := .cold, cardSlot := 0, now := 0,
    freeCount := 0, pending := [] }

end Sys2Proof.Machine
end

