-- ==== Sys2Proof/Machine/Wire.lean ====
section
/-! DEFINITION. The shelf line's format as functions: bytes and words, the frame's bytes and their
reading back (R56, R57), the CRC (R59), bit stuffing (R52), the arbitration field (R61) and the
receipt field (R60). A bit is `true` where it is recessive. -/

namespace Sys2Proof.Machine

/-! ### Bytes and words -/

/-- The high byte of a 16-bit value. -/
def hiByte (w : BitVec 16) : Byte := w.extractLsb' 8 8

/-- The low byte of a 16-bit value. -/
def loByte (w : BitVec 16) : Byte := w.extractLsb' 0 8

/-- A 16-bit value from its high and low byte. -/
def word16 (hi lo : Byte) : BitVec 16 := hi ++ lo

/-- A number as one byte. -/
def byteOf (n : Nat) : Byte := BitVec.ofNat 8 n

/-- A number as two bytes, high byte first. -/
def bytes16 (n : Nat) : List Byte := [byteOf (n / 256), byteOf n]

/-- A number as three bytes, high byte first. -/
def bytes24 (n : Nat) : List Byte := [byteOf (n / 65536), byteOf (n / 256), byteOf n]

/-- The number that bytes spell, high byte first. -/
def natOfBytes (bs : List Byte) : Nat := bs.foldl (fun n b => n * 256 + b.toNat) 0

/-- A 24-bit figure as three bytes, high byte first (R28). -/
def figureBytes (f : BitVec 24) : List Byte :=
  [f.extractLsb' 16 8, f.extractLsb' 8 8, f.extractLsb' 0 8]

/-- A card slot as one byte. -/
def slotByte (c : CardSlot) : Byte := c.setWidth 8

/-- The outage figure taken from an intact frame: above the cap, the cap (R28). -/
def capFigure (f : BitVec 24) : Nat := min f.toNat Config.figureCap

/-! ### Codes of the line (Tables 4-2, 4-3) -/

/-- The ROLL kind code. -/
def RollKind.code : RollKind → Byte
  | .cold => 0x01
  | .warm => 0x02

/-- The verdict code (section 4.2). -/
def Verdict.code : Verdict → Byte
  | .match_ => 0x01
  | .matchParked => 0x02
  | .refuseUnknown => 0x03
  | .refuseDiscord => 0x04
  | .refuseExpired => 0x05
  | .refuseClash => 0x06
  | .refuseFailed => 0x07

/-- The DROP reason code. -/
def DropReason.code : DropReason → Byte
  | .cleared => 0x01
  | .expired => 0x02
  | .clash => 0x03

/-- The value whose code a byte is. -/
def rollKindOf (b : Byte) : Option RollKind := [RollKind.cold, .warm].find? fun k => RollKind.code k == b

/-- The value whose code a byte is. -/
def verdictOf (b : Byte) : Option Verdict :=
  [Verdict.match_, .matchParked, .refuseUnknown, .refuseDiscord, .refuseExpired, .refuseClash,
    .refuseFailed].find? fun v => Verdict.code v == b

/-- The value whose code a byte is. -/
def dropReasonOf (b : Byte) : Option DropReason :=
  [DropReason.cleared, .expired, .clash].find? fun r => DropReason.code r == b

/-- The kind code: precedence in bits 7-6, kind in bits 5-3 (Table 4-2). -/
def kindCode : FrameBody → Byte
  | .answer _ => 0x00
  | .roll _ => 0x48
  | .drop _ => 0x50
  | .bid _ => 0x98
  | .carry _ => 0xE0

/-- The key bytes of the header: the entry's key in BID and CARRY, $0000 in the others (Table 4-1). -/
def headerKey : FrameBody → Key
  | .bid b => b.key
  | .carry c => c.key
  | .answer _ => 0
  | .roll _ => 0
  | .drop _ => 0

/-- The destination byte: $3F for every station (Table 4-1). -/
def destByte : Destination → Byte
  | .every => 0x3F
  | .card slot => slotByte slot

/-! ### The bytes of a frame -/

/-- A unit as a CARRY body carries it (Table 4-3). -/
def unitBytes (u : SignalUnit) : List Byte := u.sequence :: byteOf u.content.length :: u.content

/-- The body bytes by kind (Table 4-3). -/
def bodyBytes : FrameBody → List Byte
  | .roll r => RollKind.code r.kind :: figureBytes r.figure
  | .bid b => [hiByte b.circuit, loByte b.circuit, byteOf b.attempt, hiByte b.fingerprint,
      loByte b.fingerprint] ++ figureBytes b.figure
  | .answer a => [hiByte a.circuit, loByte a.circuit, byteOf a.attempt, Verdict.code a.verdict,
      hiByte a.key, loByte a.key]
  | .drop d => [hiByte d.circuit, loByte d.circuit, DropReason.code d.reason]
  | .carry c => [hiByte c.circuit, loByte c.circuit, byteOf c.units.length] ++ c.units.flatMap unitBytes

/-- Bytes 0 to 5 + n of a frame (Table 4-1): header and body, before the CRC. -/
def frameBytes (f : Frame) : List Byte :=
  [kindCode f.body, hiByte (headerKey f.body), loByte (headerKey f.body), slotByte f.source,
    destByte f.dest, byteOf (bodyBytes f.body).length] ++ bodyBytes f.body

/-! ### Reading a frame back: the tests of R57 -/

/-- The units of a CARRY body: `n` units and nothing after them. -/
def readUnits : Nat → List Byte → Option (List SignalUnit)
  | 0, [] => some []
  | 0, _ :: _ => none
  | n + 1, sequence :: len :: rest =>
    if 1 ≤ len.toNat ∧ len.toNat ≤ 8 ∧ len.toNat ≤ rest.length then
      (readUnits n (rest.drop len.toNat)).map fun us => ⟨sequence, rest.take len.toNat⟩ :: us
    else none
  | _ + 1, _ => none

/-- The body of a frame by its kind code and header key, where the body's length and fields are those
of its kind (R57, tests 1, 2, 5, 6 and 7). -/
def readBody (kind : Byte) (key : Key) (body : List Byte) : Option FrameBody :=
  if kind = 0x48 ∧ key = 0 then
    match body with
    | [k, f2, f1, f0] => (rollKindOf k).map fun k => .roll ⟨k, f2 ++ f1 ++ f0⟩
    | _ => none
  else if kind = 0x98 then
    match body with
    | [c1, c0, n, p1, p0, f2, f1, f0] =>
      some (.bid ⟨key, word16 c1 c0, n.toNat, word16 p1 p0, f2 ++ f1 ++ f0⟩)
    | _ => none
  else if kind = 0x00 ∧ key = 0 then
    match body with
    | [c1, c0, n, v, k1, k0] =>
      (verdictOf v).map fun v => .answer ⟨word16 c1 c0, n.toNat, v, word16 k1 k0⟩
    | _ => none
  else if kind = 0x50 ∧ key = 0 then
    match body with
    | [c1, c0, r] => (dropReasonOf r).map fun r => .drop ⟨word16 c1 c0, r⟩
    | _ => none
  else if kind = 0xE0 then
    match body with
    | c1 :: c0 :: n :: rest =>
      if n.toNat ≤ 4 then (readUnits n.toNat rest).map fun us => .carry ⟨key, word16 c1 c0, us⟩ else none
    | _ => none
  else none

/-- The destination a byte names (R57, test 4). -/
def readDest (b : Byte) : Option Destination :=
  if b = 0x3F then some .every
  else if b.toNat < 32 then some (.card (b.setWidth 5))
  else none

/-- The well-formed frame that the destuffed bytes before a good CRC spell, or none (R57). -/
def readFrame : List Byte → Option Frame
  | kind :: k1 :: k0 :: source :: dest :: len :: body =>
    if source.toNat < 32 ∧ len.toNat = body.length then
      match readDest dest, readBody kind (word16 k1 k0) body with
      | some d, some b =>
        let f : Frame := ⟨source.setWidth 5, d, b⟩
        if f.wf then some f else none
      | _, _ => none
    else none
  | _ => none

/-! ### CRC, bits and stuffing -/

/-- A byte's bits, most significant first. -/
def byteBits (b : Byte) : List Bool := (List.range 8).map fun i => b.getLsbD (7 - i)

/-- One bit through the CRC register (R59). -/
def crcBit (reg : BitVec 16) (bit : Bool) : BitVec 16 :=
  let shifted := reg <<< 1
  if reg.msb ^^ bit then shifted ^^^ 0x1021#16 else shifted

/-- The CRC over bytes (R59): generator $1021, register from $FFFF, most significant bit first. -/
def crc16 (bs : List Byte) : BitVec 16 := (bs.flatMap byteBits).foldl crcBit 0xFFFF#16

/-- Stuffing from a run of `run` bits equal to `last`: after five equal bits, one opposite bit, which
is the first of the next run (R52). -/
def stuffFrom (last : Bool) (run : Nat) : List Bool → List Bool
  | [] => []
  | b :: bs =>
    let r := if b = last then run + 1 else 1
    if r = 5 then b :: (!b) :: stuffFrom (!b) 1 bs else b :: stuffFrom b r bs

/-- The bits of the stuffed part of a frame before stuffing: the dominant start bit, header, body and
CRC (section 4.2). -/
def plainBits (f : Frame) : List Bool :=
  let bs := frameBytes f
  false :: (bs ++ [hiByte (crc16 bs), loByte (crc16 bs)]).flatMap byteBits

/-- The stuffed part of a frame as it stands on the line (R52). -/
def lineBits (f : Frame) : List Bool := stuffFrom true 0 (plainBits f)

/-- An abort: eight dominant bits, without stuffing (R53, R54). -/
def abortBits : List Bool := List.replicate 8 false

/-- A receiver's removal of stuff bits; none where it meets six equal bits in a row (R52, R53). -/
def destuffFrom (last : Bool) (run : Nat) : List Bool → Option (List Bool)
  | [] => some []
  | b :: bs =>
    let r := if b = last then run + 1 else 1
    if r = 5 then
      match bs with
      | [] => some [b]
      | c :: rest => if c = b then none else (destuffFrom c 1 rest).map (b :: ·)
    else (destuffFrom b r bs).map (b :: ·)

/-! ### Arbitration and receipt -/

/-- Bytes 0 to 3, the arbitration field, as one number (R61). -/
def arbitrationField (f : Frame) : Nat := natOfBytes ((frameBytes f).take 4)

/-- The bits of the arbitration field before stuffing: start bit and bytes 0 to 3 (R61). -/
def arbitrationBits (f : Frame) : List Bool := false :: ((frameBytes f).take 4).flatMap byteBits

/-- Two stations' bits in the same bit times: whether the first loses, having sent recessive where the
other sent dominant, before it has won (R61). -/
def losesTo : List Bool → List Bool → Bool
  | a :: as, b :: bs => if a = b then losesTo as bs else a
  | _, _ => false

/-- The two bits a receipt puts into the receipt field, `true` recessive (R60). -/
def receiptBits : Option Receipt → Bool × Bool
  | some .taken => (false, true)
  | some .busy => (false, false)
  | none => (true, true)

/-- What the sender reads from the receipt field (R60). -/
def readReceipt (bits : Bool × Bool) : Option Receipt :=
  match bits with
  | (false, true) => some .taken
  | (false, false) => some .busy
  | (true, _) => none

/-- The line where two stations drive the receipt field: dominant where either drives it (R50, R60). -/
def joinBits (a b : Bool × Bool) : Bool × Bool := (a.1 && b.1, a.2 && b.2)

end Sys2Proof.Machine
end

