-- ==== Sys2Proof/Machine/Figures.lean ====
section
/-! DEFINITION. The arithmetic of 02_outage_reckoning_keys_and_fingerprints.md: the episode figure,
the survival test, the restore key and the fingerprint. -/

namespace Sys2Proof.Machine

/-- The episode figure E from T and A (R24): 64 × T / A to the nearest whole ms, an exact half up, and
the two limits. -/
def episodeFigure (t a : Nat) : Nat :=
  if Config.outageMax ≤ t then Config.figureCap else min ((64 * t + a / 2) / a) Config.figureCap

/-- M after an episode (R26). -/
def accumulate (m e : Nat) : Nat := satAdd Config.figureCap m e

/-- The limit of a class (R29). -/
def Settings.limit (g : Settings) (cls : BitVec 3) : Nat := g.limits[cls.toFin]

/-- The survival test (R29): the figure is at most the limit of the class. -/
def Settings.survives (g : Settings) (cls : BitVec 3) (figure : Nat) : Bool := figure ≤ g.limit cls

/-- The restore key (R3). -/
def keyOf (cls : BitVec 3) (ordinal : BitVec 13) : Key := BitVec.ofNat 16 (cls.toNat * 8192 + ordinal.toNat)

/-- The two sums after one more byte (R32). -/
def twoSumByte (s : Nat × Nat) (b : Byte) : Nat × Nat :=
  let s1 := (s.1 + b.toNat) % 255
  (s1, (s.2 + s1) % 255)

/-- The two-sum over bytes: second sum × 256 + first sum (R32). -/
def twoSum (bs : List Byte) : BitVec 16 :=
  let s := bs.foldl twoSumByte (0, 0)
  BitVec.ofNat 16 (s.2 * 256 + s.1)

/-- The nine bytes in origin-first order (R4). -/
def fingerprintBytes (own : CardSlot) (e : Entry) : List Byte :=
  let ord : BitVec 16 := e.ordinal.setWidth 16
  [hiByte e.circuit, loByte e.circuit,
    slotByte (if e.role = .origin then own else e.farSlot),
    slotByte (if e.role = .origin then e.farSlot else own),
    (if e.role = .origin then e.txSlot else e.rxSlot),
    (if e.role = .origin then e.rxSlot else e.txSlot),
    e.cls.setWidth 8, hiByte ord, loByte ord]

/-- The fingerprint of an entry on the card in card slot `own` (R4, R32). -/
def fingerprintOf (own : CardSlot) (e : Entry) : BitVec 16 := twoSum (fingerprintBytes own e)

end Sys2Proof.Machine
end

