-- ==== Sys2Proof/Machine/Flags.lean ====
section
/-! DEFINITION. What the part shows at once from its state: the live items and the status latch
(R178), notice and delivery non-empty (R176, R161), the STATUS and LATCH bytes, ATTN (R182), UQRDY
(R137), SLN and HDO. -/

namespace Sys2Proof.Machine

/-- The power state is RUN. -/
def State.running (s : State) : Bool := s.supply.power == .run

/-- ACTIVE mode. -/
def State.active (s : State) : Bool := s.port.mode == .active

/-- The entry at an index. -/
def State.entry (s : State) (i : Index) : Entry := s.table[i]

/-- The configuration. -/
def State.settings (s : State) : Settings := s.port.settings

/-- The live values of the four latch items (Table 10-7). SLOT CLASH is detected while the transmitter
is SILENCED (R68); HIGHWAY follows the highway state (R122). -/
def State.live (s : State) : LatchItems :=
  { stuck := s.line.stuck, lost := s.switch.highway == .lost, calFault := s.supply.calFault,
    clash := s.line.silenced }

/-- The latch takes a change of the live values while it is not pending (R178). -/
def State.latchChanges (s : State) : State :=
  if s.port.latchPending then s
  else if s.port.latch = s.live then s
  else { s with port := { s.port with latch := s.live, latchPending := true } }

/-- Notice is non-empty (R176). -/
def State.noticeNonEmpty (s : State) : Bool := !s.port.notices.isEmpty || s.port.noticeBuffer.isSome

/-- Delivery is non-empty (R161). -/
def State.deliveryNonEmpty (s : State) : Bool := !s.delivery.queue.isEmpty || s.delivery.buffer.isSome

/-- Delivery is locked: the head of the Delivery Queue is a GAP record (R157). -/
def State.deliveryLocked (s : State) : Bool :=
  match s.delivery.queue with
  | r :: _ => r.gap
  | [] => false

/-- A bit at a place of a byte. -/
def flagBit (b : Bool) (place : Nat) : Byte := if b then BitVec.ofNat 8 (2 ^ place) else 0

/-- The campaign field of STATUS (Table 10-2) and of READ CAMPAIGN (R174). -/
def Campaign.code : Campaign → Byte
  | .steady => 0
  | .gather => 1
  | .contend => 2

/-- The STATUS byte (Table 10-2). -/
def State.statusByte (s : State) : Byte :=
  flagBit s.active 7 ||| (s.relink.campaign.code <<< 5) ||| flagBit s.port.latchPending 4
    ||| flagBit s.noticeNonEmpty 3 ||| flagBit s.deliveryNonEmpty 2 ||| flagBit s.port.overflow 1

/-- The LATCH byte (Table 10-8). -/
def State.latchByte (s : State) : Byte :=
  flagBit s.port.latchPending 7 ||| flagBit s.port.latch.clash 3 ||| flagBit s.port.latch.calFault 2
    ||| flagBit s.port.latch.lost 1 ||| flagBit s.port.latch.stuck 0

/-- What a read of LATCH returns: $FF from the HOLD entry to the WAKE end (R37). -/
def State.latchRead (s : State) : Byte := if s.running then s.latchByte else 0xFF

/-- ATTN is driven active (R182). -/
def State.attn (s : State) : Bool :=
  s.running && ((s.port.mask.getLsbD 0 && s.noticeNonEmpty) || (s.port.mask.getLsbD 1 && s.deliveryNonEmpty)
    || (s.port.mask.getLsbD 2 && s.port.latchPending))

/-- UQRDY is driven active (R137). -/
def State.uqrdy (s : State) : Bool := s.active && s.running && decide (s.units.length < Config.unitPlaces)

/-- The transmitter may offer (R68). -/
def State.mayOffer (s : State) : Bool := s.running && s.active && !s.line.silenced && !s.line.stuck

/-- The card hands frames from `source` to its acting blocks: in RUN, in ACTIVE mode, not SILENCED
(R63), and the source is not the card's own slot, which is a slot clash (R67). -/
def State.acts (s : State) (source : CardSlot) : Bool :=
  s.running && s.active && !s.line.silenced && source != s.cardSlot

/-- The part drives the entry's tx slot: LIVE, in RUN, with the highway PRESENT (R123). -/
def State.drives (s : State) (i : Index) : Bool :=
  (s.entry i).state == .live && s.running && s.switch.highway == .present

/-- What HDO carries in a highway slot that begins now: the outbound sample of the line channel of the
LIVE entry whose tx slot it is, or three-state (R123). -/
def State.hdoSample (s : State) (slot : Byte) : Option Byte :=
  ((List.finRange 64).find? fun i => s.drives i && (s.entry i).txSlot == slot).map fun i =>
    s.switch.outbound[(s.entry i).channel.toFin]

/-- The main cycle after the frame's start that bit `b` of highway slot `n` occupies, the most significant bit
counting as bit 0 (R119). -/
def slotCycle (n : Byte) (b : Fin 8) : Nat := 8 * n.toNat + b.val

/-- The bit HDO carries in a main cycle of the frame, or three-state (R119, R123). In the main cycles from 2048 on, which
a frame has where its sync comes late (R118), it is three-state (DESIGN CHOICE, log entry 29). -/
def State.hdoBit (s : State) (cycle : Nat) : Option Bool :=
  if cycle < Config.frameCycles then
    (s.hdoSample (BitVec.ofNat 8 (cycle / 8))).map fun b => b.getMsbD (cycle % 8)
  else none

/-- The byte of a highway slot from the bits on a highway line, by main cycle (R119). -/
def slotOfBits (bits : Nat → Bool) (n : Byte) : Byte :=
  BitVec.ofNat 8 ((List.finRange 8).foldl (fun v b => v * 2 + (bits (slotCycle n b)).toNat) 0)

/-- The byte HDI carries in a highway slot: that of another station where one drives the slot, else the part's
own sample where it drives it, else $FF (R123). -/
def State.hdiByte (s : State) (frame : HighwayFrame) (slot : Byte) : Byte :=
  (frame.others[slot.toFin]).getD ((s.hdoSample slot).getD Config.idleSample)

/-! ### The transmitter -/

/-- The transmitter's state while a frame is in its buffer. -/
def SendPhase.transmitter : SendPhase → Transmitter
  | .contending => .contending
  | .sending => .sending
  | .receipt => .receipt

/-- The transmitter's state (section 4.5). -/
def ShelfLine.transmitter (l : ShelfLine) : Transmitter :=
  if l.silenced then .silenced
  else
    match l.buffer with
    | none => .idle
    | some f => SendPhase.transmitter f.phase

/-- The frame this station drives on SLN, where it drives one (R50, R70). -/
def State.slnFrame (s : State) : Option Frame :=
  match s.line.drive with
  | .frame => s.line.buffer.map TxFrame.frame
  | .released => none
  | .abort => none

/-- The bits this station puts on SLN from the start of what it drives, `true` recessive: a frame's stuffed part,
an abort, or a receipt (R50, R52, R54, R60); none where it leaves the line released. -/
def State.slnBits (s : State) : List Bool :=
  match s.line.drive with
  | .frame => (s.slnFrame.map lineBits).getD []
  | .abort => abortBits
  | .released =>
    match s.line.receipt with
    | some r => [(receiptBits (some r)).1, (receiptBits (some r)).2]
    | none => []

end Sys2Proof.Machine
end

