-- ==== Sys2Proof/Machine/Ops.lean ====
section
/-! DEFINITION. The named operations on the state that the commands share: updates of one block, the
Notice Queue (R176), the lists (R103, R112), the Check Queue and its results (R125 to R128), the moves
into FAILED and PENDING (R15 to R17), the campaign's begin and end (R74, R81), and the clock. -/

namespace Sys2Proof.Machine

/-! ### Updates of one block -/

def State.setEntry (s : State) (i : Index) (e : Entry) : State := { s with table := s.table.set i e }
def State.onEntry (s : State) (i : Index) (f : Entry → Entry) : State := s.setEntry i (f (s.entry i))
def State.onSupply (s : State) (f : SupplyMonitor → SupplyMonitor) : State := { s with supply := f s.supply }
def State.onRelink (s : State) (f : RelinkEngine → RelinkEngine) : State := { s with relink := f s.relink }
def State.onLine (s : State) (f : ShelfLine → ShelfLine) : State := { s with line := f s.line }
def State.onSwitch (s : State) (f : SlotSwitch → SlotSwitch) : State := { s with switch := f s.switch }
def State.onDelivery (s : State) (f : DeliveryUnit → DeliveryUnit) : State := { s with delivery := f s.delivery }
def State.onPort (s : State) (f : CardPort → CardPort) : State := { s with port := f s.port }
def State.setUnits (s : State) (us : List QueuedUnit) : State := { s with units := us }
def State.setNow (s : State) (n : Nat) : State := { s with now := n }

/-- A pass over the table in index order. -/
def State.eachEntry (s : State) (f : Index → State → State) : State :=
  (List.finRange 64).foldl (fun s i => f i s) s

/-- The lowest index whose entry has a property. -/
def State.findEntry (s : State) (p : Entry → Bool) : Option Index :=
  (List.finRange 64).find? fun i => p (s.entry i)

/-- The entry, among those with a property, of lowest key and then lowest index (R31). -/
def State.bestEntry (s : State) (p : Index → Bool) : Option Index :=
  (List.finRange 64).foldl
    (fun best i =>
      if p i then
        match best with
        | none => some i
        | some j => if (s.entry i).key.toNat < (s.entry j).key.toNat then some i else some j
      else best) none

/-! ### Notices (R176) -/

/-- An index as the entry byte of a notice. -/
def indexByte (i : Index) : Byte := byteOf i.val

/-- A notice joins the queue, or is dropped with the overflow flag set (R176). -/
def State.post (s : State) (n : Notice) : State :=
  if s.port.notices.length < Config.noticePlaces then
    s.onPort fun p => { p with notices := p.notices ++ [n] }
  else s.onPort fun p => { p with overflow := true }

/-- The failure reason code (Table 1-6). -/
def FailReason.code : FailReason → Byte
  | .expired => 1
  | .discord => 2
  | .clash => 3
  | .refused => 4
  | .dropped => 5
  | .lost => 6
  | .absent => 7

/-- The far reason code (Table 1-6). -/
def FarReason.code : FarReason → Byte
  | .unknown => 1
  | .discord => 2
  | .expired => 3
  | .clash => 4
  | .failed => 5
  | .cleared => 6

/-- The far reason code, 0 where absent. -/
def farCode : Option FarReason → Byte
  | none => 0
  | some r => r.code

/-! ### Settle, campaign begin and campaign end (R74, R81) -/

/-- PENDING, BIDDING, CHECKING, JOINING or DEFERRED: what holds a campaign in CONTEND (R81). -/
def EntryState.relinking : EntryState → Bool
  | .pending => true
  | .bidding => true
  | .checking => true
  | .joining => true
  | .deferred => true
  | .empty => false
  | .parked => false
  | .live => false
  | .failed => false

/-- JOINING, LIVE or PARKED: the two halves have agreed (R138, R142, R153). -/
def EntryState.agreed : EntryState → Bool
  | .joining => true
  | .live => true
  | .parked => true
  | .empty => false
  | .pending => false
  | .bidding => false
  | .deferred => false
  | .checking => false
  | .failed => false

/-- Neither EMPTY nor FAILED. -/
def EntryState.standing : EntryState → Bool
  | .empty => false
  | .failed => false
  | .parked => true
  | .live => true
  | .pending => true
  | .bidding => true
  | .deferred => true
  | .checking => true
  | .joining => true

/-- Some entry of the card is relinking (R81). -/
def State.anyRelinking (s : State) : Bool := (List.finRange 64).any fun i => (s.entry i).state.relinking

/-- The causes of CAMPAIGN BEGUN (R74). -/
inductive BeginCause where
  | ownWake | peerRoll | start
  | entry (i : Index)
deriving DecidableEq, Repr

/-- The notice CAMPAIGN BEGUN (R74, Table 10-6). -/
def BeginCause.notice : BeginCause → Notice
  | .ownWake => ⟨.campaignBegun, 0xFF, 1, 0⟩
  | .peerRoll => ⟨.campaignBegun, 0xFF, 2, 0⟩
  | .start => ⟨.campaignBegun, 0xFF, 3, 0⟩
  | .entry i => ⟨.campaignBegun, indexByte i, 4, 0⟩

/-- A campaign begin: counts 0, front none, CAMPAIGN BEGUN (R74). -/
def State.beginCampaign (s : State) (cause : BeginCause) : State :=
  (s.onRelink fun r => { r with joined := 0, failed := 0, late := 0, front := none }).post cause.notice

/-- A campaign begins in GATHER with the gather timer at G (R75, R76). -/
def State.beginGather (s : State) (cause : BeginCause) : State :=
  (s.beginCampaign cause).onRelink fun r =>
    { r with campaign := .gather, gatherTimer := some (s.now + s.settings.g), settleTimer := .stopped }

/-- An entry that becomes PENDING in STEADY begins a campaign in CONTEND (R75). -/
def State.beginForEntry (s : State) (i : Index) : State :=
  if s.relink.campaign = .steady then
    (s.beginCampaign (.entry i)).onRelink fun r =>
      { r with campaign := .contend, settleTimer := .runsOutAt (s.now + s.settings.q) }
  else s

/-- The notice CAMPAIGN ENDED (R81, Table 10-6). -/
def RelinkEngine.endedNotice (r : RelinkEngine) : Notice :=
  ⟨.campaignEnded, byteOf r.joined, byteOf r.failed, byteOf r.late⟩

/-- The move from CONTEND to STEADY where no entry is relinking and the settle timer has run out (R81). -/
def State.endIfSettled (s : State) : State :=
  if s.relink.campaign = .contend ∧ s.relink.settleTimer = .runOut ∧ s.anyRelinking = false then
    ((s.post s.relink.endedNotice).onSupply fun u => { u with m := 0 }).onRelink fun r =>
      { r with campaign := .steady, front := none, settleTimer := .stopped }
  else s

/-- A count of 0..255 that stops at 255 (R82). -/
def countUp (n : Nat) : Nat := satAdd 255 n 1

/-! ### Units and drives -/

/-- All units of an entry leave the queue; UNITS DISCARDED where there was one (R16). -/
def State.discardUnits (s : State) (i : Index) : State :=
  let n := (s.units.filter fun u => u.entry == i).length
  if n = 0 then s
  else (s.setUnits (s.units.filter fun u => u.entry != i)).post ⟨.unitsDiscarded, indexByte i, 1, byteOf n⟩

/-- A LIVE entry stops being driven: its inbound sample reads $FF (R124). -/
def State.stopDrive (s : State) (i : Index) : State :=
  if (s.entry i).state = .live then
    s.onSwitch fun w => { w with inbound := w.inbound.set (s.entry i).channel.toFin Config.idleSample }
  else s

/-- The answer timer stops where the entry is BIDDING (R95). -/
def State.stopAnswerTimer (s : State) (i : Index) : State :=
  if (s.entry i).state = .bidding then s.onRelink fun r => { r with answerTimer := none } else s

/-! ### The Check Queue (R125, R126, R128) -/

/-- What a reading can end a check with (R126). -/
inductive CheckResult where
  | pass | fail
deriving DecidableEq, Repr

/-- The result that a reading gives the checker: FAIL at one other than $FF, PASS at the fourth $FF in a row (R126). -/
def Checker.result (c : Checker) (reading : Byte) : Option CheckResult :=
  if reading ≠ Config.idleSample then some .fail
  else if Config.quietReadings ≤ c.samples + 1 then some .pass
  else none

/-- The checker takes the head of the queue if it is idle (R126). -/
def SlotSwitch.fillOne (armed : Bool) (w : SlotSwitch) (k : Fin 4) : SlotSwitch :=
  match w.checkers[k], w.checkQueue with
  | none, i :: rest => { w with checkQueue := rest, checkers := w.checkers.set k (some ⟨i, 0, armed⟩) }
  | none, [] => w
  | some _, _ => w

/-- Idle checkers take heads, lowest number first, until none is idle or the queue is empty (R126). -/
def SlotSwitch.fill (armed : Bool) (w : SlotSwitch) : SlotSwitch :=
  (List.finRange 4).foldl (SlotSwitch.fillOne armed) w

/-- The index is on a quiet checker. -/
def SlotSwitch.onChecker (w : SlotSwitch) (i : Index) : Bool :=
  (List.finRange 4).any fun k =>
    match w.checkers[k] with
    | some c => c.index == i
    | none => false

/-- A check for the entry stands: queued or on a checker (R125). -/
def SlotSwitch.checking (w : SlotSwitch) (i : Index) : Bool := w.checkQueue.contains i || w.onChecker i

/-- A checker holding the index becomes idle. -/
def dropChecker (i : Index) (c : Option Checker) : Option Checker :=
  match c with
  | some k => if k.index = i then none else c
  | none => none

/-- A check is withdrawn with no result, and idle checkers take heads (R128). -/
def SlotSwitch.withdraw (w : SlotSwitch) (i : Index) : SlotSwitch :=
  SlotSwitch.fill false
    { w with checkQueue := w.checkQueue.filter fun j => j != i, checkers := w.checkers.map (dropChecker i) }

/-! ### Moves into FAILED and PENDING (R15, R17) -/

/-- A move into FAILED: record, deadline, drive and check, FAILED, units (R15); the failed count rises
in GATHER and CONTEND (R82). -/
def State.moveToFailed (s : State) (i : Index) (reason : FailReason) (far : Option FarReason) : State :=
  let s := ((s.stopAnswerTimer i).stopDrive i).onSwitch fun w => w.withdraw i
  let s := s.onEntry i fun e =>
    { e with state := .failed, failure := some ⟨reason, far⟩, deadline := none }
  let s := s.post ⟨.failed, indexByte i, reason.code, farCode far⟩
  let s := s.discardUnits i
  if s.relink.campaign = .steady then s else s.onRelink fun r => { r with failed := countUp r.failed }

/-- The absent deadline of a half that is PENDING now: now + P for a FAR in CONTEND, else none (R80). -/
def State.pendingDeadline (s : State) (role : Role) : Option Nat :=
  if role = .far ∧ s.relink.campaign = .contend then some (s.now + s.settings.p) else none

/-- A move into PENDING with the misses the moving rule gives; the attempt is kept (R17). In STEADY it
begins a campaign, before anything else (R74, R75). -/
def State.moveToPending (s : State) (i : Index) (misses : Nat) : State :=
  let s := s.beginForEntry i
  let s := ((s.stopAnswerTimer i).stopDrive i).onSwitch fun w => w.withdraw i
  s.onEntry i fun e =>
    { e with state := .pending, late := false, noReceipt := 0, busy := 0, misses := misses,
             deadline := s.pendingDeadline e.role }

/-- A move into DEFERRED with a deadline of now + P (R79, R93, R95). -/
def State.moveToDeferred (s : State) (i : Index) (misses : Nat) : State :=
  s.onEntry i fun e => { e with state := .deferred, misses := misses, deadline := some (s.now + s.settings.p) }

/-! ### The Answer List and the Drop List (R103, R105, R112) -/

/-- An item for the circuit and origin card slot. -/
def AnswerItem.isFor (circuit : Circuit) (origin : CardSlot) (a : AnswerItem) : Bool :=
  a.circuit == circuit && a.origin == origin

/-- An answer replaces the item of its circuit and origin slot in place, or joins the tail, or is
abandoned where the list is full (R103). -/
def queueAnswerItem (list : List AnswerItem) (a : AnswerItem) : List AnswerItem :=
  if list.any (AnswerItem.isFor a.circuit a.origin) then
    list.map fun b => if AnswerItem.isFor a.circuit a.origin b then a else b
  else if list.length < Config.listPlaces then list ++ [a]
  else list

/-- An answer is queued (R103). -/
def State.queueAnswer (s : State) (a : AnswerItem) : State :=
  s.onRelink fun r => { r with answers := queueAnswerItem r.answers a }

/-- The far half's answer for an entry: its circuit, far slot, attempt and key (R98, R101). -/
def Entry.answer (e : Entry) (verdict : Verdict) : AnswerItem :=
  ⟨e.circuit, e.farSlot, e.attempt, verdict, e.key⟩

/-- The item is an answer for the entry: a REFUSE-UNKNOWN item has no entry (R105). -/
def AnswerItem.isOf (e : Entry) (a : AnswerItem) : Bool :=
  AnswerItem.isFor e.circuit e.farSlot a && a.verdict != .refuseUnknown

/-- Any answer queued for the entry leaves the list (R105). -/
def State.removeAnswer (s : State) (i : Index) : State :=
  s.onRelink fun r => { r with answers := r.answers.filter fun a => !AnswerItem.isOf (s.entry i) a }

/-- The notice DROP UNDELIVERED (R112, Table 10-6). -/
def undelivered (circuit : Circuit) : Notice := ⟨.dropUndelivered, 0xFF, hiByte circuit, loByte circuit⟩

/-- A DROP is added at the tail, or not where one is listed for its circuit and slot, or abandoned with
a notice where the list is full (R112). -/
def State.addDrop (s : State) (circuit : Circuit) (far : CardSlot) (reason : DropReason) : State :=
  if s.relink.drops.any fun d => d.circuit == circuit && d.far == far then s
  else if s.relink.drops.length < Config.listPlaces then
    s.onRelink fun r => { r with drops := r.drops ++ [⟨circuit, far, reason, 0⟩] }
  else s.post (undelivered circuit)

/-- A DROP for the entry's circuit to its far slot (R12, R78, R111, R127). -/
def State.addDropFor (s : State) (i : Index) (reason : DropReason) : State :=
  s.addDrop (s.entry i).circuit (s.entry i).farSlot reason

/-! ### Results of quiet checks (R101, R111, R127) and requests (R125) -/

/-- The entry goes LIVE and CONNECTED is posted (R101, R111, R127). -/
def State.connect (s : State) (i : Index) : State :=
  (s.onEntry i fun e => { e with state := .live }).post ⟨.connected, indexByte i, 0, 0⟩

/-- PASS by the entry's state (R127). -/
def State.checkPass (s : State) (i : Index) : State :=
  match (s.entry i).state with
  | .checking => (s.connect i).queueAnswer ((s.entry i).answer .match_)
  | .joining => s.connect i
  | .parked => s.connect i
  | .empty => s
  | .live => s
  | .pending => s
  | .bidding => s
  | .deferred => s
  | .failed => s

/-- FAIL by the entry's state (R127). -/
def State.checkFail (s : State) (i : Index) : State :=
  match (s.entry i).state with
  | .checking => (s.moveToFailed i .clash none).queueAnswer ((s.entry i).answer .refuseClash)
  | .joining => (s.moveToFailed i .clash none).addDropFor i .clash
  | .parked => (s.moveToFailed i .clash none).addDropFor i .clash
  | .empty => s
  | .live => s
  | .pending => s
  | .bidding => s
  | .deferred => s
  | .failed => s

/-- Cannot-run by the entry's state (R101, R111, R127). -/
def State.checkCannotRun (s : State) (i : Index) : State :=
  match (s.entry i).state with
  | .checking =>
    (s.onEntry i fun e => { e with state := .parked }).queueAnswer ((s.entry i).answer .matchParked)
  | .joining => s.onEntry i fun e => { e with state := .parked }
  | .parked => s
  | .empty => s
  | .live => s
  | .pending => s
  | .bidding => s
  | .deferred => s
  | .failed => s

/-- A check request (R125): cannot-run at once while LOST, absorbed into a standing check, or queued. -/
def State.requestCheck (s : State) (i : Index) : State :=
  match s.switch.highway with
  | .lost => s.checkCannotRun i
  | .present =>
    if s.switch.checking i then s
    else s.onSwitch fun w => SlotSwitch.fill false { w with checkQueue := w.checkQueue ++ [i] }

/-! ### The receiver (R51, R55, R62) -/

/-- The counts of one bit time, `true` recessive: recessive bits in a row (R51), dominant bits in a row, and SHELF LINE,
STUCK once these pass 2000 and NORMAL where the gap count reaches 11 (R55). The dominant count stops where it has
passed. -/
def ShelfLine.countBit (l : ShelfLine) (bit : Bool) : ShelfLine :=
  if bit then
    let gap := min (l.gap + 1) Config.startGap
    { l with gap := gap, dominant := 0, stuck := l.stuck && gap != Config.startGap }
  else
    { l with gap := 0, dominant := min (l.dominant + 1) (Config.stuckBits + 1)
             stuck := l.stuck || decide (Config.stuckBits < l.dominant + 1) }

/-- The bits that RECEIVING reads belong to the stuffed part of a frame, and not to a receipt field (R52, R60). -/
def ShelfLine.inStuffed (l : ShelfLine) : Bool := l.closing.isNone && !l.buffer.any fun f => f.phase == .receipt

/-- One bit time of the receiver, `true` recessive (Table 4-5): a start gap from HUNT to IDLE, a start bit from IDLE to
RECEIVING, a dominant bit too early from IDLE to HUNT, and six equal bits in a row in the stuffed part of a frame from
RECEIVING to HUNT (R53). -/
def ShelfLine.readBit (l : ShelfLine) (bit : Bool) : ShelfLine :=
  let n := l.countBit bit
  match l.receiver, bit with
  | .hunt, true => { n with receiver := if n.gap = Config.startGap then .idle else .hunt }
  | .idle, false => { n with receiver := if l.gap = Config.startGap then .receiving else .hunt }
  | .hunt, false => n
  | .idle, true => n
  | .receiving, _ =>
    { n with receiver :=
        if l.inStuffed = true ∧ (Config.stuffLimit ≤ n.gap ∨ Config.stuffLimit ≤ n.dominant) then .hunt else .receiving }

/-- The receiver at an offer point: IDLE with the gap count at 11 (R62), SHELF LINE NORMAL (R55). -/
def ShelfLine.atOffer (l : ShelfLine) : ShelfLine :=
  { l with receiver := .idle, gap := Config.startGap, dominant := 0, stuck := false, receipt := none, closing := none }

/-- The receiver once a frame's start gap and start bit lie behind it (R62; DESIGN CHOICE, log entry 28). -/
def ShelfLine.startHeard (l : ShelfLine) : ShelfLine := l.atOffer.readBit false

/-- At the end of the CRC of an intact frame the observer has it, and the receipt field begins (R62, R63): recessive,
but for the frame that the acting block has had already, whose receipt stands (R64; log entry 5). -/
def ShelfLine.hearFrame (l : ShelfLine) (f : Frame) : ShelfLine :=
  if l.closing = some ⟨f, .acted⟩ then { l.startHeard with receipt := l.receipt, closing := some ⟨f, .both⟩ }
  else { l.startHeard with closing := some ⟨f, .observed⟩ }

/-- At the end of the CRC of an intact frame the acting block has it and gives the receipt that is driven (R64). -/
def ShelfLine.giveReceipt (l : ShelfLine) (f : Frame) (r : Option Receipt) : ShelfLine :=
  { l.startHeard with
    receipt := r
    closing := some ⟨f, if l.closing = some ⟨f, .observed⟩ then .both else .acted⟩ }

/-- The dominant bits in a row that a receipt field ends with (R60). -/
def receiptRun (r : Option Receipt) : Nat := if r = some .busy then 2 else 0

/-- The receipt field of a frame heard ends: IDLE with the gap count at 0, and no receipt driven (Table 4-5). -/
def ShelfLine.endFrame (l : ShelfLine) : ShelfLine :=
  { l with receiver := .idle, gap := 0, dominant := receiptRun l.receipt, receipt := none, closing := none }

/-- The receiver loses its place on the line after a frame's start bit, and drives no receipt (R53, R57, R59). The gap
count is an operand; where it is 0 the last bit read was dominant, with at least `run` of them in a row (DESIGN CHOICE,
log entry 8). -/
def ShelfLine.toHunt (l : ShelfLine) (gap run : Nat) : ShelfLine :=
  { l.startHeard with receiver := .hunt, gap := gap, dominant := if gap = 0 then run else 0 }

/-- The dominant count has passed 2000 (R55): a run so long leaves the receiver in HUNT (R53, R62). -/
def ShelfLine.toStuck (l : ShelfLine) : ShelfLine :=
  { l with receiver := .hunt, gap := 0, dominant := Config.stuckBits + 1, stuck := true, receipt := none, closing := none }

/-! ### The end of a frame of this station -/

/-- The receipt field of a frame of this station ends: the frame is completed, to be handed to the observer (R65). -/
def ShelfLine.endReceipt (l : ShelfLine) (r : Option Receipt) : ShelfLine :=
  { l.endFrame with
    dominant := receiptRun r, buffer := none, drive := .released, completed := l.buffer.map TxFrame.frame }

/-- The line at the end of a frame of this station: the buffer is emptied (R65); IDLE after the receipt field; still
RECEIVING after lost arbitration or withdrawal (R61, R66); HUNT after a failed output, whose last bit read was recessive
(R66), and after an abort (DEDUCED, log entry 9). -/
def ShelfLine.endSend (l : ShelfLine) (o : SendOutcome) : ShelfLine :=
  let free := { l with buffer := none, drive := .released }
  match o with
  | .taken => l.endReceipt (some .taken)
  | .busy => l.endReceipt (some .busy)
  | .noReceipt => l.endReceipt none
  | .lost => free
  | .outputFailed gap => { free with receiver := .hunt, gap := min gap (Config.startGap - 1), dominant := 0 }
  | .aborted => { free with receiver := .hunt }

/-- The outcomes that a frame may have in a phase: in RECEIPT the transmitter does not compare, so it loses nothing and
its output fails nowhere (R66). -/
def SendOutcome.fits (o : SendOutcome) (p : SendPhase) : Bool :=
  match o with
  | .lost => p != .receipt
  | .outputFailed _ => p != .receipt
  | .taken => true
  | .busy => true
  | .noReceipt => true
  | .aborted => true

/-- The frame of this station that an outcome ends (R65): the one in the transmit buffer, where its phase allows that
outcome (R66). -/
def State.ending (s : State) (o : SendOutcome) : Option TxFrame :=
  if s.running then s.line.buffer.filter fun f => SendOutcome.fits o f.phase else none

/-- The marks are cleared and the units stay (R144, R145, R147). -/
def State.unmarkUnits (s : State) : State := s.setUnits (s.units.map fun u => { u with inFlight := false })

/-- A frame of this station that was CONTENDING or SENDING has been withdrawn before, with outcome LOST, where the line is
stuck, a frame on it fails, or another station has this card's own slot (R55, R61, R66, R67): it is taken here where its
command has not come yet (DEDUCED, log entry 32). An intact frame from another card slot withdraws nothing: the outcome of
a CARRY comes after it (R148). -/
def State.withdraw (s : State) : State :=
  match s.ending .lost with
  | none => s
  | some f =>
    let t := s.onLine fun l => l.endSend .lost
    match f.frame.body with
    | .carry _ => t.unmarkUnits
    | .roll _ => t
    | .bid _ => t
    | .answer _ => t
    | .drop _ => t

/-! ### The clock -/

/-- `n` ms pass in RUN: the tick and the ticks of the calibration window (R20; DEDUCED, log entry 3). -/
def State.elapse (s : State) (n : Nat) : State :=
  (s.setNow (s.now + n)).onSupply fun u =>
    { u with window := u.window.map fun k => min (k + n) Config.windowTicks }

/-- The clock stands at a tick, or where it already is if that is later (log entry 3). -/
def State.elapseTo (s : State) (tick : Nat) : State := s.elapse (tick - s.now)

/-- `n` aux ticks are counted by T, which stops at its limit (R23). -/
def State.countAux (s : State) (n : Nat) : State :=
  s.onSupply fun u => { u with t := satAdd Config.outageMax u.t n }

/-! ### Taking a port command (R166, R167) -/

/-- The number of parameter bytes a command counts: more than 12 with the overlength mark (R166). -/
def CardPort.paramCount (p : CardPort) : Nat :=
  if p.overlength then Config.paramPlaces + 1 else p.params.length

/-- The port takes commands: in RUN with CRST high (R37, R183). -/
def State.takesCommands (s : State) : Bool := s.running && !s.port.crstLow

/-- A command leaves its result bytes, the read position at the first, and an empty buffer (R167). -/
def State.leaveResult (s : State) (bytes : List Byte) : State :=
  s.onPort fun p => { p with results := bytes, resultPos := 0, params := [], overlength := false }

end Sys2Proof.Machine
end

