-- ==== Sys2Proof/Machine/Operands.lean ====
section
/-! DEFINITION. The operands of the port commands: the layouts of the parameter bytes (Table 1-4,
Table 8-1, R169 to R171), their range tests, the result codes (Table 10-4) and the result layouts
(Table 1-5, R173 to R175). -/

namespace Sys2Proof.Machine

/-! ### Result codes (Table 10-4) -/

def rDone : Byte := 0x01
def rClamped : Byte := 0x02
def rWrongMode : Byte := 0x03
def rBadParameter : Byte := 0x04
def rDuplicate : Byte := 0x05
def rNoEntry : Byte := 0x06
def rFull : Byte := 0x07
def rNothingToClear : Byte := 0x08

/-- A parameter byte by its position, counting from 1; 0 beyond the buffer. -/
def paramByte (ps : List Byte) (position : Nat) : Byte := ps.getD (position - 1) 0

/-- Two parameter bytes as a number, high byte first. -/
def paramWord (ps : List Byte) (position : Nat) : Nat :=
  natOfBytes [paramByte ps position, paramByte ps (position + 1)]

/-- The index a parameter byte names, 0..63. -/
def indexOf (b : Byte) : Option Index := if h : b.toNat < 64 then some ⟨b.toNat, h⟩ else none

/-! ### WRITE ENTRY (Table 1-4, R7) -/

/-- The position of the first parameter byte out of range (R7, case 3). -/
def badPosition (ps : List Byte) : Option Nat :=
  if 63 < (paramByte ps 1).toNat then some 1
  else if paramWord ps 2 = 0 then some 2
  else if 1 < (paramByte ps 4).toNat then some 4
  else if 31 < (paramByte ps 5).toNat then some 5
  else if 63 < (paramByte ps 6).toNat then some 6
  else if 7 < (paramByte ps 9).toNat then some 9
  else if 8191 < paramWord ps 10 then some 10
  else none

/-- The entry WRITE ENTRY's twelve bytes describe, with the kept fields as R8 starts them. -/
def writtenEntry (own : CardSlot) (ps : List Byte) : Entry :=
  let cls : BitVec 3 := (paramByte ps 9).setWidth 3
  let ordinal : BitVec 13 := BitVec.ofNat 13 (paramWord ps 10)
  let e : Entry :=
    { Entry.cleared with
      state := .parked
      circuit := BitVec.ofNat 16 (paramWord ps 2)
      role := if paramByte ps 4 = 0 then .origin else .far
      farSlot := (paramByte ps 5).setWidth 5
      channel := (paramByte ps 6).setWidth 6
      txSlot := paramByte ps 7
      rxSlot := paramByte ps 8
      cls := cls
      ordinal := ordinal
      key := keyOf cls ordinal }
  { e with fingerprint := fingerprintOf own e }

/-- The lowest non-EMPTY entry that clashes with a new one in a field (R5, R7). -/
def State.clashing (s : State) (p : Entry → Bool) : Option Index :=
  s.findEntry fun e => e.state != .empty && p e

/-! ### READ ENTRY (Table 1-5, R14) -/

/-- The entry state code (Table 1-6). -/
def EntryState.code : EntryState → Byte
  | .empty => 0
  | .parked => 1
  | .live => 2
  | .pending => 3
  | .bidding => 4
  | .deferred => 5
  | .checking => 6
  | .joining => 7
  | .failed => 8

/-- The role code (Table 1-4). -/
def Role.code : Role → Byte
  | .origin => 0
  | .far => 1

/-- A 0 or 1 byte. -/
def boolByte (b : Bool) : Byte := if b then 1 else 0

/-- The failure reason and far reason bytes: 0 where absent (R14). -/
def failureBytes (f : Option Failure) : List Byte :=
  match f with
  | none => [0, 0]
  | some f => [f.reason.code, farCode f.far]

/-- A deadline as the ms that remain, $FFFF where absent (R14). -/
def deadlineBytes (now : Nat) (d : Option Nat) : List Byte :=
  match d with
  | none => [0xFF, 0xFF]
  | some t => bytes16 (t - now)

/-- The 27-byte record of an entry (Table 1-5). An EMPTY entry reads as state EMPTY with every other
byte zero, the index byte among them (R14; DEDUCED, log entry 10), and the deadline bytes $FFFF. -/
def entryRecord (now : Nat) (i : Index) (e : Entry) : List Byte :=
  [if e.state = .empty then 0 else indexByte i, e.state.code, hiByte e.circuit, loByte e.circuit,
    Role.code e.role, slotByte e.farSlot, e.channel.setWidth 8, e.txSlot, e.rxSlot, e.cls.setWidth 8]
  ++ bytes16 e.ordinal.toNat ++ [hiByte e.key, loByte e.key, hiByte e.fingerprint, loByte e.fingerprint,
    e.txSeq, e.rxExpected, byteOf e.attempt, byteOf e.misses, byteOf e.noReceipt, byteOf e.busy,
    boolByte e.late]
  ++ deadlineBytes now e.deadline ++ failureBytes e.failure

/-! ### The reading commands (R173 to R175) -/

/-- Eight presence bits, card slots `base + 7` down to `base`, most significant first (R173). -/
def presenceByte (roster : Vector RosterRecord 32) (base : Nat) : Byte :=
  byteOf ((List.range 8).foldl
    (fun n k => n * 2 + if (roster[base + 7 - k]?.getD RosterRecord.absent).heard then 1 else 0) 0)

/-- The ROLL kind and figure bytes of a roster record: 0 where absent (R173). -/
def rosterRollBytes (r : Option (RollKind × Nat)) : List Byte :=
  match r with
  | none => [0, 0, 0, 0]
  | some (k, f) => RollKind.code k :: bytes24 f

/-- The six bytes of one card slot's record (R173). -/
def rosterRecordBytes (c : CardSlot) (r : RosterRecord) : List Byte :=
  [slotByte c, boolByte r.heard] ++ rosterRollBytes r.roll

/-- The front's bytes 6 to 8 (R174). -/
def frontBytes (f : Option Key) : List Byte :=
  match f with
  | none => [0, 0, 0]
  | some k => [1, hiByte k, loByte k]

/-- The open-bid record's bytes 9 to 13 (R174). -/
def openBidBytes (b : Option OpenBid) : List Byte :=
  match b with
  | none => [0, 0, 0, 0xFF, 0xFF]
  | some b => [1, hiByte b.circuit, loByte b.circuit, slotByte b.origin, slotByte b.far]

/-- The gather timer's bytes 14 and 15 (R174). -/
def gatherBytes (now : Nat) (t : Option Nat) : List Byte :=
  match t with
  | none => [0xFF, 0xFF]
  | some t => bytes16 (t - now)

/-- The settle timer's bytes 16 and 17 (R174). -/
def settleBytes (now : Nat) (t : SettleTimer) : List Byte :=
  match t with
  | .stopped => [0xFF, 0xFF]
  | .runOut => [0, 0]
  | .runsOutAt t => bytes16 (t - now)

/-- The pending ROLL's byte 18 (R174). -/
def pendingRollByte (k : Option RollKind) : Byte :=
  match k with
  | none => 0
  | some k => RollKind.code k

/-- The entry in BIDDING (R90: at most one). -/
def State.biddingEntry (s : State) : Option Index := s.findEntry fun e => e.state == .bidding

/-- The byte 21: the index in BIDDING, $FF when none (R174). -/
def biddingByte (i : Option Index) : Byte :=
  match i with
  | none => 0xFF
  | some i => indexByte i

/-- The byte 22: the answer timer's remaining ms, $FF when not running (R174). -/
def answerTimerByte (now : Nat) (t : Option Nat) : Byte :=
  match t with
  | none => 0xFF
  | some t => byteOf (t - now)

/-- The 21 bytes of READ CAMPAIGN after the result code (R174). -/
def State.campaignBytes (s : State) : List Byte :=
  let r := s.relink
  [r.campaign.code, byteOf r.joined, byteOf r.failed, byteOf r.late]
  ++ frontBytes r.front ++ openBidBytes r.openBid ++ gatherBytes s.now r.gatherTimer
  ++ settleBytes s.now r.settleTimer
  ++ [pendingRollByte r.pendingRoll, byteOf r.answers.length, byteOf r.drops.length,
      biddingByte s.biddingEntry, answerTimerByte s.now r.answerTimer]

/-- The ten bytes of READ FIGURES after the result code (R175). -/
def State.figureBytes (s : State) : List Byte :=
  bytes16 s.supply.a ++ bytes24 s.supply.m ++ bytes24 s.supply.e
  ++ [boolByte s.supply.calFault, slotByte s.cardSlot]

/-! ### Notice and delivery records at the port -/

/-- The notice kind code (Table 10-6). -/
def NoticeKind.code : NoticeKind → Byte
  | .joined => 1
  | .connected => 2
  | .failed => 3
  | .unitsDiscarded => 4
  | .dropUndelivered => 5
  | .campaignBegun => 6
  | .campaignEnded => 7

/-- The bytes the NOTICE read buffer serves: a notice record, or the EMPTY marker (Table 10-6). -/
def noticeBytes (n : Option Notice) : List Byte :=
  match n with
  | none => [0]
  | some n => [n.kind.code, n.entry, n.a, n.b]

/-- The bytes the DELIVERY read buffer serves: a unit record, or the EMPTY marker (Table 9-1). -/
def deliveryBytes (r : Option DeliveryRecord) : List Byte :=
  match r with
  | none => [0]
  | some r => [if r.gap then 2 else 1, indexByte r.entry, hiByte r.circuit, loByte r.circuit, r.sequence,
      byteOf r.content.length] ++ r.content

end Sys2Proof.Machine
end

