-- ==== Sys2Proof/Machine/Highway.lean ====
section
/-! DEFINITION. The Slot Switch's events (07_the_highway_slot_switch.md): syncs, the highway's loss and
return, the frames with their copies and readings, and the results of quiet checks. -/

namespace Sys2Proof.Machine

/-- A sync falls within 2048 ± 4 main cycles (R117, R118). -/
def onTime (cycles : Nat) : Bool :=
  Config.frameCycles - Config.syncTolerance ≤ cycles && cycles ≤ Config.frameCycles + Config.syncTolerance

/-! ### Highway slots and frames -/

/-- The outbound samples as a highway slot begins, those that the line circuitry fills before it among them (R119). -/
def HighwayFrame.fillBefore (frame : HighwayFrame) (n : Byte) (samples : Vector Byte 64) : Vector Byte 64 :=
  samples.zipWith (fun old x => if x.slot = n then x.sample else old) frame.fills

/-- The line circuitry fills samples before a highway slot begins (R119). -/
def SlotSwitch.fillBefore (w : SlotSwitch) (frame : HighwayFrame) (n : Byte) : SlotSwitch :=
  { w with outbound := HighwayFrame.fillBefore frame n w.outbound }

/-- At the end of a highway slot each driven entry whose rx slot it is copies its byte (R123). -/
def State.copySlot (s : State) (n b : Byte) : State :=
  s.eachEntry fun i t =>
    if s.drives i = true ∧ (s.entry i).rxSlot = n then
      t.onSwitch fun w => { w with inbound := w.inbound.set (s.entry i).channel.toFin b }
    else t

/-- A check ends with a result (R126, R127): the checker becomes idle and takes the next head. -/
def State.endCheck (s : State) (k : Fin 4) (i : Index) (r : CheckResult) : State :=
  let s := s.onSwitch fun w => { w with checkers := w.checkers.set k none }
  let s :=
    match r with
    | .pass => s.checkPass i
    | .fail => s.checkFail i
  (s.onSwitch fun w => SlotSwitch.fill false w).endIfSettled

/-- A checker reads its entry's tx slot, from the first frame that started after it took the index: the reading counts,
or ends the check at once (R126; DEDUCED, log entry 13). -/
def State.readChecker (n b : Byte) (k : Fin 4) (s : State) : State :=
  match s.switch.checkers[k] with
  | some c =>
    if c.armed = true ∧ (s.entry c.index).txSlot = n then
      match c.result b with
      | some r => s.endCheck k c.index r
      | none => s.onSwitch fun w => { w with checkers := w.checkers.set k (some { c with samples := c.samples + 1 }) }
    else s
  | none => s

/-- At the end of a highway slot the checkers whose entry's tx slot it is take their readings (R126). -/
def State.readSlot (s : State) (n b : Byte) : State :=
  (List.finRange 4).foldl (fun s k => s.readChecker n b k) s

/-- The byte HDI carries in the highway slot that begins now, the samples filled in before it (R119, R123). -/
def State.nextByte (s : State) (frame : HighwayFrame) (n : Byte) : Byte :=
  (s.onSwitch fun w => w.fillBefore frame n).hdiByte frame n

/-- The next highway slot of the frame in progress passes (R119): the samples filled in before it, its drive read
as it begins, and its copies and readings as it ends. -/
def State.passSlot (s : State) : State :=
  match s.switch.timing with
  | none => s
  | some x =>
    if x.slot < Config.frameSlots then
      let n : Byte := BitVec.ofNat 8 x.slot
      let b := s.nextByte x.frame n
      let s := s.onSwitch fun w => { w.fillBefore x.frame n with timing := some { x with slot := x.slot + 1 } }
      (s.copySlot n b).readSlot n b
    else s

/-- So many highway slots pass. -/
def State.passSlots : Nat → State → State
  | 0, s => s
  | k + 1, s => State.passSlots k s.passSlot

/-- The frame in progress passes until so many of its highway slots have ended. -/
def State.passTo (s : State) (slots : Nat) : State :=
  match s.switch.timing with
  | none => s
  | some x => State.passSlots (slots - x.slot) s

/-- A frame starts (R119), and every busy checker reads in it (R126). -/
def SlotSwitch.startFrame (w : SlotSwitch) (frame : HighwayFrame) : SlotSwitch :=
  { w with timing := some ⟨frame, 0⟩, checkers := w.checkers.map fun c => c.map fun x => { x with armed := true } }

/-! ### Loss and return -/

/-- The indices of the PARKED entries, in index order (R121). -/
def State.parkedIndices (s : State) : List Index :=
  (List.finRange 64).filter fun i => (s.entry i).state == .parked

/-- The highway becomes PRESENT (R121): PARKED entries are queued, and idle checkers take heads, which
they sample from the frame that starts now (R126). -/
def State.gainHighway (s : State) (frame : HighwayFrame) : State :=
  (s.onSwitch fun w =>
    SlotSwitch.fill true
      { w with highway := .present, runCount := Config.syncRun, missing := 0, timing := some ⟨frame, 0⟩,
               checkQueue := w.checkQueue ++ s.parkedIndices }).latchChanges

/-- The loss for one entry: a LIVE entry parks, a standing check ends cannot-run (R120). -/
def State.loseEntry (checks : SlotSwitch) (i : Index) (s : State) : State :=
  if (s.entry i).state = .live then s.onEntry i fun e => { e with state := .parked }
  else if checks.checking i then s.checkCannotRun i
  else s

/-- The highway becomes LOST (R120). -/
def State.loseHighway (s : State) : State :=
  let t := s.onSwitch fun w =>
    { w with highway := .lost, runCount := 0, missing := 0, timing := none, inbound := Vector.replicate 64 Config.idleSample }
  let t := t.eachEntry (State.loseEntry s.switch)
  let t := t.onSwitch fun w => { w with checkQueue := [], checkers := Vector.replicate 4 none }
  t.endIfSettled.latchChanges

/-! ### The commands -/

/-- A sync while the highway is LOST (R117). -/
def State.syncLost (s : State) (cycles : Nat) (frame : HighwayFrame) : State :=
  let run := if s.switch.runCount ≠ 0 ∧ onTime cycles = true then s.switch.runCount + 1 else 1
  if Config.syncRun ≤ run then s.gainHighway frame else s.onSwitch fun w => { w with runCount := run }

/-- A sync while the highway is PRESENT: on time it ends the frame in progress and starts the next; otherwise it
is a stray (R118). -/
def State.syncPresent (s : State) (cycles : Nat) (frame : HighwayFrame) : State :=
  if onTime cycles then
    (s.passTo Config.frameSlots).onSwitch fun w => { w.startFrame frame with missing := 0 }
  else s

/-- SYNC (R117, R118). -/
def execSync (cycles : Nat) (frame : HighwayFrame) (s : State) : Host.Outcome State Fault Refusal :=
  .next <|
    if s.running then
      match s.switch.highway with
      | .lost => s.syncLost cycles frame
      | .present => s.syncPresent cycles frame
    else s

/-- SYNC_MISSING (R118): the frame ends and the next starts at the expected instant; at the third in a row
the highway is LOST (R120). A reading in highway slot 255 that ends a check falls together with that loss, and R129 lets
either be taken first: the slot passes first (DESIGN CHOICE, log entry 31). -/
def execSyncMissing (frame : HighwayFrame) (s : State) : Host.Outcome State Fault Refusal :=
  .next <|
    if s.running = true ∧ s.switch.highway = .present then
      let s := s.passTo Config.frameSlots
      if s.switch.missing + 1 < Config.missingLimit then
        s.onSwitch fun w => { w.startFrame frame with missing := w.missing + 1 }
      else s.loseHighway
    else s

/-- RUN_TIMEOUT (R117). -/
def execRunTimeout (s : State) : Host.Outcome State Fault Refusal :=
  .next <|
    if s.running = true ∧ s.switch.highway = .lost then s.onSwitch fun w => { w with runCount := 0 } else s

/-- QUIET_CHECK_RESULT (R127): the reading that ends the check falls in the frame in progress, which passes to the end
of that highway slot (log entry 3). With no such reading there, as on a checker abandoned and filled again (R128,
R129), there is no result. -/
def execQuietCheckResult (checker : Fin 4) (reading : Byte) (s : State) : Host.Outcome State Fault Refusal :=
  .next <|
    match s.running, s.switch.highway, s.switch.checkers[checker], s.switch.timing with
    | true, .present, some c, some x =>
      let n := (s.entry c.index).txSlot
      let t := s.passTo n.toNat
      if c.armed = true ∧ x.slot ≤ n.toNat ∧ t.nextByte x.frame n = reading ∧ (c.result reading).isSome = true then
        t.passSlot
      else s
    | _, _, _, _ => s

end Sys2Proof.Machine
end

