-- ==== Sys2Proof/Machine/Line.lean ====
section
/-! DEFINITION. The Shelf Line Controller's events (04_the_shelf_line.md): the offer point with the
selection and composition of a frame (R69, R70), the line's faults, and the frame handed to the
observer (R63, R67, R86 to R89, R96). -/

namespace Sys2Proof.Machine

/-! ### Candidates (R69) -/

/-- Candidate 1: the head of the Answer List, composed (R104). -/
def State.answerCandidate (s : State) : Option TxFrame :=
  s.relink.answers.head?.map fun a =>
    ⟨⟨s.cardSlot, .card a.origin, .answer ⟨a.circuit, a.attempt, a.verdict, a.key⟩⟩, none, .contending⟩

/-- M as a frame carries it (R28). -/
def State.figure (s : State) : BitVec 24 := BitVec.ofNat 24 s.supply.m

/-- Candidate 2: the pending ROLL, composed with M (R83). -/
def State.rollCandidate (s : State) : Option TxFrame :=
  s.relink.pendingRoll.map fun k => ⟨⟨s.cardSlot, .every, .roll ⟨k, s.figure⟩⟩, none, .contending⟩

/-- Candidate 3: the head of the Drop List, composed (R113). -/
def State.dropCandidate (s : State) : Option TxFrame :=
  s.relink.drops.head?.map fun d =>
    ⟨⟨s.cardSlot, .card d.far, .drop ⟨d.circuit, d.reason⟩⟩, none, .contending⟩

/-- A PENDING ORIGIN entry (R90). -/
def State.maybid (s : State) (i : Index) : Bool :=
  (s.entry i).state == .pending && (s.entry i).role == .origin

/-- The entry of the BID candidate (R88, R90). -/
def State.bidEntry (s : State) : Option Index :=
  if s.relink.campaign = .contend ∧ s.relink.openBid = none ∧ s.biddingEntry = none then
    s.bestEntry s.maybid
  else none

/-- Candidate 4: the BID of an entry, with attempt misses + 1 (R91). -/
def State.bidCandidate (s : State) : Option TxFrame :=
  s.bidEntry.map fun i =>
    let e := s.entry i
    ⟨⟨s.cardSlot, .card e.farSlot, .bid ⟨e.key, e.circuit, e.misses + 1, e.fingerprint, s.figure⟩⟩, some i,
      .contending⟩

/-- The entry is eligible to carry: agreed, with a unit in the queue (R138). -/
def State.eligible (s : State) (i : Index) : Bool :=
  (s.entry i).state.agreed && s.units.any fun u => u.entry == i

/-- The entry of the CARRY candidate (R139). -/
def State.carryEntry (s : State) : Option Index := s.bestEntry s.eligible

/-- The units that a CARRY of the entry packs: its oldest, up to K (R140). -/
def State.packed (s : State) (i : Index) : List SignalUnit :=
  ((s.units.filter fun u => u.entry == i).take s.settings.k).map fun u => ⟨u.sequence, u.content⟩

/-- Candidate 5: the CARRY of an entry (R140). -/
def State.carryCandidate (s : State) : Option TxFrame :=
  s.carryEntry.map fun i =>
    let e := s.entry i
    ⟨⟨s.cardSlot, .card e.farSlot, .carry ⟨e.key, e.circuit, s.packed i⟩⟩, some i, .contending⟩

/-- The frame the transmitter selects at an offer point: the first available candidate (R68, R69). -/
def State.selection (s : State) : Option TxFrame :=
  if s.mayOffer then
    ((((s.answerCandidate <|> s.rollCandidate) <|> s.dropCandidate) <|> s.bidCandidate) <|> s.carryCandidate)
  else none

/-- The first `n` units of an entry in queue order are marked in flight (R140, R141). -/
def markUnits (i : Index) : Nat → List QueuedUnit → List QueuedUnit
  | 0, us => us
  | _ + 1, [] => []
  | n + 1, u :: us =>
    if u.entry = i then { u with inFlight := true } :: markUnits i n us else u :: markUnits i (n + 1) us

/-- The units as composing a frame leaves them: a CARRY marks its units (R140). -/
def State.marksFor (s : State) (f : TxFrame) : List QueuedUnit :=
  match f.frame.body, f.entry with
  | .carry _, some i => markUnits i s.settings.k s.units
  | _, _ => s.units

/-- The frame goes into the transmit buffer and its start bit is driven: the transmitter is CONTENDING, and the
receiver reads the start bit as any other's (R62, R65, R70). -/
def State.send (s : State) (f : TxFrame) : State :=
  (s.setUnits (s.marksFor f)).onLine fun l => { l.readBit false with buffer := some f, drive := .frame }

/-- The frame on the line goes on (R65): CONTENDING until byte 3, SENDING until the CRC, and RECEIPT, in which the
line is left released for the receipt field (R60). -/
def ShelfLine.goOn (l : ShelfLine) : ShelfLine :=
  match l.buffer with
  | none => l
  | some f =>
    match f.phase with
    | .contending => { l with buffer := some { f with phase := .sending } }
    | .sending => { l with buffer := some { f with phase := .receipt }, drive := .released }
    | .receipt => l

/-! ### The observer (R86, R87, R89, R96) -/

/-- The frame is handed to an acting block of this card (R63). -/
def State.actsOn (s : State) (f : Frame) : Bool :=
  s.acts f.source && (f.dest == .every || f.dest == .card s.cardSlot)

/-- The acting block's own rule governs a DEFERRED entry facing the frame's source (R96): a DROP for it,
a ROLL COLD, or an ANSWER it takes. -/
def State.actorGoverns (s : State) (f : Frame) (i : Index) : Bool :=
  s.actsOn f &&
    match f.body with
    | .drop d => (s.entry i).circuit == d.circuit
    | .roll r => r.kind == .cold
    | .answer a => (s.entry i).circuit == a.circuit && (s.entry i).attempt == a.attempt
    | .bid _ => false
    | .carry _ => false

/-- DEFERRED entries facing the source return to PENDING with misses 0 (R96). -/
def State.deferredReturn (s : State) (f : Frame) : State :=
  s.eachEntry fun i t =>
    if (t.entry i).state = .deferred ∧ (t.entry i).farSlot = f.source ∧ s.actorGoverns f i = false then
      t.moveToPending i 0
    else t

/-- The roster record after a frame from its slot: HEARD; a ROLL sets kind and figure (R86). -/
def RosterRecord.hear (r : RosterRecord) (body : FrameBody) : RosterRecord :=
  match body with
  | .roll roll => ⟨true, some (roll.kind, capFigure roll.figure)⟩
  | .bid _ => { r with heard := true }
  | .answer _ => { r with heard := true }
  | .drop _ => { r with heard := true }
  | .carry _ => { r with heard := true }

/-- A frame from another card slot enters the roster (R86). -/
def RelinkEngine.hear (r : RelinkEngine) (f : Frame) : RelinkEngine :=
  { r with roster := r.roster.set f.source.toFin (r.roster[f.source.toFin].hear f.body) }

/-- A BID sets the open-bid record and restarts the settle timer in CONTEND (R81, R87). -/
def RelinkEngine.observeBid (r : RelinkEngine) (now q : Nat) (source far : CardSlot) (b : Bid) : RelinkEngine :=
  { r with openBid := some ⟨b.circuit, source, far, now⟩
           settleTimer := if r.campaign = .contend then .runsOutAt (now + q) else r.settleTimer }

/-- The open-bid record after an ANSWER (R87). -/
def openBidAfter (o : Option OpenBid) (source : CardSlot) (a : Answer) : Option OpenBid :=
  match o with
  | some b => if b.circuit = a.circuit ∧ b.far = source then none else some b
  | none => none

/-- MATCH and MATCH-PARKED: the halves agree (R89). -/
def Verdict.agrees : Verdict → Bool
  | .match_ => true
  | .matchParked => true
  | .refuseUnknown => false
  | .refuseDiscord => false
  | .refuseExpired => false
  | .refuseClash => false
  | .refuseFailed => false

/-- The front raised to a key (R89). -/
def raiseFront (front : Option Key) (key : Key) : Option Key :=
  match front with
  | none => some key
  | some k => if k.toNat < key.toNat then some key else some k

/-- The open-bid record and the front after an ANSWER (R87, R89). -/
def RelinkEngine.observeAnswer (r : RelinkEngine) (source : CardSlot) (a : Answer) : RelinkEngine :=
  { r with openBid := openBidAfter r.openBid source a
           front := if r.campaign ≠ .steady ∧ Verdict.agrees a.verdict = true then raiseFront r.front a.key else r.front }

/-- The half of an ANSWER's arrival that the observer has taken, kept for the late test (log entry 5). -/
def State.arrivalAfter (s : State) (f : Frame) : Arrival :=
  match f.body with
  | .answer a =>
    if s.actsOn f = false then .none
    else if s.relink.arrival = .acted f.source a then .none
    else .observed f.source a s.relink.front
  | .bid _ => .none
  | .roll _ => .none
  | .drop _ => .none
  | .carry _ => .none

/-- What the observer does with a frame, heard or completed (R87, R89). -/
def State.observe (s : State) (f : Frame) : State :=
  match f.body, f.dest with
  | .bid b, .card far => s.onRelink fun r => r.observeBid s.now s.settings.q f.source far b
  | .answer a, _ => s.onRelink fun r => r.observeAnswer f.source a
  | _, _ => s

/-- A frame from this card's own slot is a slot clash, finds a frame of this card CONTENDING or SENDING withdrawn, silences
the transmitter and draws no receipt (R67); one from
another slot enters the roster and returns DEFERRED entries (R86, R96). -/
def State.hearSource (s : State) (f : Frame) : State :=
  if f.source = s.cardSlot then s.withdraw.onLine fun l => { l with silenced := true, receipt := none }
  else (s.onRelink fun r => r.hear f).deferredReturn f

/-! ### The commands -/

/-- OFFER_POINT (R69): the gap count stands at 11; the first available candidate is composed (R70). While
a frame of this station is on the line there is no offer point (R65). -/
def execOfferPoint (s : State) : Host.Outcome State Fault Refusal :=
  .next <|
    if s.running = true ∧ s.line.buffer = none then
      let s := ((s.onLine ShelfLine.atOffer).onRelink fun r => { r with arrival := .none }).latchChanges
      match s.selection with
      | some f => s.send f
      | none => s
    else s

/-- SHELF_LINE_STUCK (R55): the dominant count passes 2000; a frame of this station has been withdrawn by then. -/
def execShelfLineStuck (s : State) : Host.Outcome State Fault Refusal :=
  .next <|
    if s.running then
      (s.withdraw.onLine ShelfLine.toStuck).latchChanges
    else s

/-- The receiver goes to HUNT in a frame of another station (R53, R57, R59). -/
def State.toHunt (s : State) (gap run : Nat) : State := (s.withdraw.onLine fun l => l.toHunt gap run).latchChanges

/-- A dominant bit between frames, after the receipt field where one runs: in IDLE with the gap count below 11 it is a
framing fault, and with the count at 11 a start bit (R62). -/
def State.earlyDominant (s : State) : State :=
  (s.onLine fun l => (if l.closing.isSome then l.endFrame else l).readBit false).latchChanges

/-- A framing fault by its cause (R53): six equal bits, a body length above 43, or an early dominant bit (R62). -/
def State.framingFault (s : State) (cause : FramingCause) (gap : Nat) : State :=
  match cause with
  | .sixEqual => s.toHunt gap Config.stuffLimit
  | .bodyLength _ => s.toHunt gap 1
  | .earlyDominant => s.earlyDominant

/-- FRAMING_FAULT (R53, R62). -/
def execFramingFault (cause : FramingCause) (gap : Nat) (s : State) : Host.Outcome State Fault Refusal :=
  .next (if s.running = true ∧ framingWf cause gap = true then s.framingFault cause gap else s)

/-- CRC_FAILURE (R59): the CRC read differs from the CRC over the bytes. -/
def execCrcFailure (bytes : List Byte) (crc : BitVec 16) (gap : Nat) (s : State) :
    Host.Outcome State Fault Refusal :=
  .next (if s.running = true ∧ gapWf gap = true ∧ crc16 bytes ≠ crc then s.toHunt gap 1 else s)

/-- MALFORMED_FRAME (R57): a good CRC over bytes that are no well-formed frame. -/
def execMalformedFrame (bytes : List Byte) (gap : Nat) (s : State) : Host.Outcome State Fault Refusal :=
  .next (if s.running = true ∧ gapWf gap = true ∧ readFrame bytes = none then s.toHunt gap 1 else s)

/-- An intact frame heard (R63), its start bit read before it: it is handed on at the end of its CRC. -/
def State.frameHeard (s : State) (f : Frame) : State :=
  let t := (s.onLine fun l => l.hearFrame f).hearSource f
  let t := (t.observe f).onRelink fun r => { r with arrival := s.arrivalAfter f }
  t.endIfSettled.latchChanges

/-- The frame this card completed last, which the transmitter hands to the observer (R65). -/
def State.frameCompleted (s : State) (f : Frame) : State :=
  let t := (s.onLine fun l => { l with completed := none }).observe f
  (t.onRelink fun r => { r with arrival := .none }).endIfSettled

/-- FRAME_OBSERVED (R86): an intact frame heard, or the frame this card completed last, and no other, with its
outcome before it (DEDUCED, log entry 22). -/
def execFrameObserved (origin : FrameOrigin) (f : Frame) (s : State) : Host.Outcome State Fault Refusal :=
  .next <|
    match s.running, origin with
    | true, .heard => if f.wf then s.frameHeard f else s
    | true, .completed => if s.line.completed = some f then s.frameCompleted f else s
    | false, _ => s

end Sys2Proof.Machine
end

