-- ==== Sys2Proof/Machine/Clock.lean ====
section
/-! DEFINITION. What a step does with nothing waiting (log entry 6): the first event that is due, or else the
next phase of the frame on the shelf line, or the next highway slot of the frame in progress, or one tick of
the clock that runs — the 1 ms tick in RUN, the aux tick in HOLD and WAKE (R42). -/

namespace Sys2Proof.Machine

/-- The deadline of the entry has passed: DEFERRED (R97), or PENDING FAR (R102). -/
def State.dueDeadline (s : State) (i : Index) : Option Instr :=
  match (s.entry i).state, (s.entry i).role, (s.entry i).deadline with
  | .deferred, _, some t => if t ≤ s.now then some (.deferredDeadline i) else none
  | .pending, .far, some t => if t ≤ s.now then some (.absentDeadline i) else none
  | _, _, _ => none

/-- The frame this card completed last has not been handed to the observer (R65). -/
def State.dueObserved (s : State) : Option Instr := s.line.completed.map (.frameObserved .completed)

/-- The open-bid record is W ms old (R87), by the W in force now (DESIGN CHOICE, log entry 27). -/
def State.dueOpenBid (s : State) : Option Instr :=
  match s.relink.openBid with
  | some b => if b.tick + s.settings.w ≤ s.now then some .openBidExpiry else none
  | none => none

/-- The answer timer has run out (R95). -/
def State.dueAnswer (s : State) : Option Instr :=
  match s.relink.answerTimer, s.biddingEntry with
  | some t, some _ => if t ≤ s.now then some .answerTimerExpiry else none
  | _, _ => none

/-- The gather timer has run out (R77). -/
def State.dueGather (s : State) : Option Instr :=
  match s.relink.campaign, s.relink.gatherTimer with
  | .gather, some t => if t ≤ s.now then some .gatherClose else none
  | _, _ => none

/-- The settle timer has run out and its expiry has not been taken (R81). -/
def State.dueSettle (s : State) : Option Instr :=
  match s.relink.settleTimer with
  | .runsOutAt t => if t ≤ s.now then some .settleTimerExpiry else none
  | .stopped => none
  | .runOut => none

/-- The event that idling takes first: a completed frame, the open bid, the answer timer, deadlines in index
order, the gather timer, the settle timer. The spec lets events that fall together be taken
in any order, and a command in the queue may take any of them first (log entry 6). -/
def State.dueEvent (s : State) : Option Instr :=
  if s.running then
    (((((s.dueObserved <|> s.dueOpenBid) <|> s.dueAnswer) <|> (List.finRange 64).findSome? s.dueDeadline)
      <|> s.dueGather) <|> s.dueSettle)
  else none

/-- One tick of the clock that runs: 1 ms in RUN, one aux tick in HOLD and WAKE (R36, R42). -/
def State.tick (s : State) : State := if s.running then s.elapse 1 else s.countAux 1

/-- A frame of this station is on the line and has not reached its receipt field (R65). -/
def ShelfLine.goesOn (l : ShelfLine) : Bool := l.buffer.any fun f => f.phase != .receipt

/-- A highway slot of the frame in progress is still to pass (R119). -/
def SlotSwitch.slotsLeft (w : SlotSwitch) : Bool := w.timing.any fun x => decide (x.slot < Config.frameSlots)

/-- The time that passes with nothing due. In RUN a receipt field, a frame on the shelf line, and a highway frame
come to their end before a ms has passed (R58, R117). -/
def State.passTime (s : State) : State :=
  if s.running then
    if s.line.closing.isSome then s.onLine ShelfLine.endFrame
    else if s.line.goesOn then s.onLine ShelfLine.goOn
    else if s.switch.slotsLeft then s.passSlot
    else s.tick
  else s.tick

end Sys2Proof.Machine
end

