-- ==== Sys2Proof/Machine/Relink.lean ====
section
/-! DEFINITION. The Relink Engine as acting block (05_campaigns_and_the_roster.md and
06_bids_answers_and_joins.md): ROLL, BID, ANSWER and DROP received; the outcomes of the frames it sent;
its timers and deadlines. -/

namespace Sys2Proof.Machine

/-- The receipt that the acting block gives for a frame heard (R63, R64). -/
def State.giveReceipt (s : State) (f : Frame) (r : Option Receipt) : State :=
  (s.onLine fun l => l.giveReceipt f r).latchChanges

/-- A frame from a card slot to this card (R63). -/
def State.frameToMe (s : State) (source : CardSlot) (body : FrameBody) : Frame := ⟨source, .card s.cardSlot, body⟩

/-- The non-EMPTY entry of a circuit whose far slot is the source (R5). -/
def State.entryFacing (s : State) (circuit : Circuit) (source : CardSlot) : Option Index :=
  s.findEntry fun e => e.state != .empty && e.circuit == circuit && e.farSlot == source

/-- The FAR entry of a circuit whose far slot is the source (R5, R98). -/
def State.farEntryFacing (s : State) (circuit : Circuit) (source : CardSlot) : Option Index :=
  s.findEntry fun e => e.state != .empty && e.circuit == circuit && e.farSlot == source && e.role == .far

/-! ### ROLL received -/

/-- The campaign effect of a ROLL taken from a peer (R75, R77). -/
def State.rollEffect (s : State) : State :=
  match s.relink.campaign with
  | .steady => s.beginGather .peerRoll
  | .gather => s.onRelink fun r => { r with gatherTimer := some (s.now + s.settings.g) }
  | .contend => s

/-- A ROLL COLD's effect on one entry (R84). -/
def State.rollColdEntry (source : CardSlot) (i : Index) (s : State) : State :=
  if (s.entry i).farSlot = source ∧ (s.entry i).state.standing = true then
    (s.moveToFailed i .lost none).removeAnswer i
  else s

/-- LIVE, PARKED, JOINING, BIDDING, CHECKING or DEFERRED: what a ROLL WARM returns to PENDING (R85). -/
def EntryState.returnable (st : EntryState) : Bool := st.standing && st != .pending

/-- A ROLL WARM's effect on one entry (R85). -/
def State.rollWarmEntry (source : CardSlot) (i : Index) (s : State) : State :=
  if (s.entry i).farSlot = source then
    if (s.entry i).state.returnable then (s.moveToPending i 0).removeAnswer i
    else if (s.entry i).state = .pending then s.onEntry i fun e => { e with misses := 0 }
    else s
  else s

/-- ROLL_COLD_RECEIVED (R84). -/
def execRollColdReceived (source : CardSlot) (figure : BitVec 24) (s : State) :
    Host.Outcome State Fault Refusal :=
  .next <|
    if s.acts source then
      (((s.giveReceipt ⟨source, .every, .roll ⟨.cold, figure⟩⟩ none).rollEffect).eachEntry (State.rollColdEntry source)).endIfSettled
    else s

/-- ROLL_WARM_RECEIVED (R85). -/
def execRollWarmReceived (source : CardSlot) (figure : BitVec 24) (s : State) :
    Host.Outcome State Fault Refusal :=
  .next <|
    if s.acts source then
      ((s.giveReceipt ⟨source, .every, .roll ⟨.warm, figure⟩⟩ none).rollEffect).eachEntry (State.rollWarmEntry source)
    else s

/-! ### BID received -/

/-- The figure of the BID test: the larger of the BID's, capped, and the card's own M (R30). -/
def State.bidFigure (s : State) (b : Bid) : Nat := max (capFigure b.figure) s.supply.m

/-- The answer to a BID about an entry (R98). -/
def Bid.answerFor (b : Bid) (source : CardSlot) (verdict : Verdict) (key : Key) : AnswerItem :=
  ⟨b.circuit, source, b.attempt, verdict, key⟩

/-- A BID that passed the first four checks (R100). -/
def State.acceptBid (s : State) (i : Index) (source : CardSlot) (b : Bid) : State :=
  let s := s.onEntry i fun e => { e with attempt := b.attempt }
  match (s.entry i).state with
  | .live => s.queueAnswer (Bid.answerFor b source .match_ (s.entry i).key)
  | .parked => s.queueAnswer (Bid.answerFor b source .matchParked (s.entry i).key)
  | .pending => (s.onEntry i fun e => { e with state := .checking, deadline := none }).requestCheck i
  | .checking => s
  | .empty => s
  | .bidding => s
  | .deferred => s
  | .joining => s
  | .failed => s

/-- The judgement of a BID for an entry found (R99, R100). -/
def State.judgeBid (s : State) (i : Index) (source : CardSlot) (b : Bid) : State :=
  let e := s.entry i
  if e.state = .failed then s.queueAnswer (Bid.answerFor b source .refuseFailed e.key)
  else if b.fingerprint ≠ e.fingerprint then
    (s.moveToFailed i .discord none).queueAnswer (Bid.answerFor b source .refuseDiscord e.key)
  else if s.settings.survives e.cls (s.bidFigure b) = false then
    (s.moveToFailed i .expired none).queueAnswer (Bid.answerFor b source .refuseExpired e.key)
  else s.acceptBid i source b

/-- BID_RECEIVED (R98): receipt TAKEN, the judgement, and the answer through the Answer List. -/
def execBidReceived (source : CardSlot) (b : Bid) (s : State) : Host.Outcome State Fault Refusal :=
  .next <|
    if s.acts source = true ∧ b.wf = true then
      let s := s.giveReceipt (s.frameToMe source (.bid b)) (some .taken)
      (match s.farEntryFacing b.circuit source with
        | none => s.queueAnswer (Bid.answerFor b source .refuseUnknown 0)
        | some i => s.judgeBid i source b).endIfSettled
    else s

/-! ### ANSWER received -/

/-- The front as it stood before the observer took this ANSWER (R108). -/
def State.frontBefore (s : State) (source : CardSlot) (a : Answer) : Option Key :=
  match s.relink.arrival with
  | .observed src b front => if src = source ∧ b = a then front else s.relink.front
  | .acted _ _ => s.relink.front
  | .none => s.relink.front

/-- The arrival record once the acting block has had the ANSWER (log entry 5). -/
def Arrival.afterActing (r : Arrival) (source : CardSlot) (a : Answer) : Arrival :=
  match r with
  | .observed src b _ => if src = source ∧ b = a then .none else .acted source a
  | .acted _ _ => .acted source a
  | .none => .acted source a

/-- A key lies below the front (R108). -/
def keyBelow (key : Key) (front : Option Key) : Bool :=
  match front with
  | none => false
  | some k => decide (key.toNat < k.toNat)

/-- The entry takes the ANSWER: BIDDING, PENDING or DEFERRED origin with the ANSWER's attempt (R106). -/
def Entry.takesAnswer (e : Entry) (a : Answer) : Bool :=
  e.role == .origin && (e.state == .bidding || e.state == .pending || e.state == .deferred)
    && e.attempt == a.attempt

/-- The joined and late counts with a JOINED notice, in GATHER and CONTEND (R82). -/
def RelinkEngine.countJoin (r : RelinkEngine) (late : Bool) : RelinkEngine :=
  if r.campaign = .steady then r
  else { r with joined := countUp r.joined, late := if late then countUp r.late else r.late }

/-- The origin has agreed: its state, late flag, JOINED and the counts (R107, R108, R109). -/
def State.join (s : State) (i : Index) (st : EntryState) (late : Bool) : State :=
  let s := s.onEntry i fun e => { e with state := st, late := late, deadline := none }
  (s.post ⟨.joined, indexByte i, boolByte late, 0⟩).onRelink fun r => r.countJoin late

/-- The far reason a REFUSE verdict gives (R110). -/
def Verdict.farReason : Verdict → FarReason
  | .refuseDiscord => .discord
  | .refuseExpired => .expired
  | .refuseClash => .clash
  | .refuseFailed => .failed
  | .refuseUnknown => .unknown
  | .match_ => .unknown
  | .matchParked => .unknown

/-- The entry moves as the verdict gives (R107 to R110). -/
def State.takeAnswer (s : State) (i : Index) (a : Answer) (late : Bool) : State :=
  let s := s.stopAnswerTimer i
  match a.verdict with
  | .match_ => (s.join i .joining late).requestCheck i
  | .matchParked => (s.join i .parked late).requestCheck i
  | .refuseUnknown => s.moveToFailed i .refused (some (Verdict.farReason a.verdict))
  | .refuseDiscord => s.moveToFailed i .refused (some (Verdict.farReason a.verdict))
  | .refuseExpired => s.moveToFailed i .refused (some (Verdict.farReason a.verdict))
  | .refuseClash => s.moveToFailed i .refused (some (Verdict.farReason a.verdict))
  | .refuseFailed => s.moveToFailed i .refused (some (Verdict.farReason a.verdict))

/-- ANSWER_RECEIVED (R106). -/
def execAnswerReceived (source : CardSlot) (a : Answer) (s : State) : Host.Outcome State Fault Refusal :=
  .next <|
    if s.acts source = true ∧ a.wf = true then
      let front := s.frontBefore source a
      let s := (s.giveReceipt (s.frameToMe source (.answer a)) (some .taken)).onRelink fun r =>
        { r with arrival := r.arrival.afterActing source a }
      match s.entryFacing a.circuit source with
      | none => s
      | some i =>
        if (s.entry i).takesAnswer a then
          (s.takeAnswer i a (keyBelow (s.entry i).key front)).endIfSettled
        else s
    else s

/-! ### DROP received -/

/-- The far reason a DROP's reason gives (R6, R114). -/
def DropReason.farReason : DropReason → FarReason
  | .cleared => .cleared
  | .expired => .expired
  | .clash => .clash

/-- DROP_RECEIVED (R114). -/
def execDropReceived (source : CardSlot) (d : Drop) (s : State) : Host.Outcome State Fault Refusal :=
  .next <|
    if s.acts source = true ∧ d.wf = true then
      let s := s.giveReceipt (s.frameToMe source (.drop d)) (some .taken)
      match s.entryFacing d.circuit source with
      | none => s
      | some i =>
        if (s.entry i).state = .failed then s
        else ((s.moveToFailed i .dropped (some (DropReason.farReason d.reason))).removeAnswer i).endIfSettled
    else s

/-! ### Outcomes -/

/-- The same for a ROLL. -/
def RollOutcome.toSend : RollOutcome → SendOutcome
  | .sent => .noReceipt
  | .lost => .lost
  | .outputFailed gap => .outputFailed gap
  | .aborted => .aborted

/-- A BID's outcome for the entry found (R92, R93, R94). -/
def State.bidEnds (s : State) (i : Index) (attempt : Nat) (o : SendOutcome) : State :=
  let bidding : State :=
    (s.onEntry i fun e => { e with state := .bidding, attempt := attempt }).onRelink fun r =>
      { r with answerTimer := some (s.now + s.settings.w) }
  match o with
  | .taken => bidding
  | .busy => bidding
  | .noReceipt =>
    let s := s.onEntry i fun e => { e with attempt := attempt, misses := attempt }
    if attempt < Config.missLimit then s else s.moveToDeferred i attempt
  | .lost => s
  | .outputFailed _ => s
  | .aborted => s

/-- The entry a BID was composed from stands as it was: ORIGIN, PENDING, same circuit and far slot (R92). -/
def Entry.sentBid (e : Entry) (b : Bid) (far : CardSlot) : Bool :=
  e.state == .pending && e.role == .origin && e.circuit == b.circuit && e.farSlot == far

/-- A BID's outcome at the entry it was composed from: ignored where the entry has been cleared since, written
anew or not (R13), or is no more as it was (R92). -/
def State.bidOutcomeAt (s : State) (owner : Option Index) (far : CardSlot) (b : Bid) (o : SendOutcome) : State :=
  match owner with
  | some i => if (s.entry i).sentBid b far then s.bidEnds i b.attempt o else s
  | none => s

/-- BID_OUTCOME (R92). -/
def execBidOutcome (o : SendOutcome) (s : State) : Host.Outcome State Fault Refusal :=
  .next <|
    match s.ending o with
    | some ⟨⟨_, .card far, .bid b⟩, owner, _⟩ => (s.onLine fun l => l.endSend o).bidOutcomeAt owner far b o
    | _ => s

/-- The item an ANSWER was composed from: circuit, origin slot, attempt and verdict (R104). -/
def AnswerItem.isSent (a : Answer) (origin : CardSlot) (item : AnswerItem) : Bool :=
  AnswerItem.isFor a.circuit origin item && item.attempt == a.attempt && item.verdict == a.verdict

/-- The Answer List after an ANSWER's outcome (R104). -/
def answersAfter (list : List AnswerItem) (a : Answer) (origin : CardSlot) (o : SendOutcome) : List AnswerItem :=
  let sent := list.filter fun item => !AnswerItem.isSent a origin item
  match o with
  | .taken => sent
  | .busy => sent
  | .noReceipt => sent
  | .lost => list
  | .outputFailed _ => list
  | .aborted => list

/-- ANSWER_OUTCOME (R104). -/
def execAnswerOutcome (o : SendOutcome) (s : State) : Host.Outcome State Fault Refusal :=
  .next <|
    match s.ending o with
    | some ⟨⟨_, .card origin, .answer a⟩, _, _⟩ =>
      (s.onLine fun l => l.endSend o).onRelink fun r => { r with answers := answersAfter r.answers a origin o }
    | _ => s

/-- A DROP that drew no receipt: its sends rise by one, and at 4 it is given up (R113). -/
def State.dropUnreceipted (s : State) : State :=
  match s.relink.drops with
  | [] => s
  | d :: rest =>
    if d.sends + 1 < Config.dropSends then
      s.onRelink fun r => { r with drops := { d with sends := d.sends + 1 } :: rest }
    else (s.onRelink fun r => { r with drops := rest }).post (undelivered d.circuit)

/-- The Drop List after a DROP's outcome (R113), which acts on its head (DEDUCED, log entry 21). R13 has the outcome of a
DROP ignored once its entry has been cleared, and R113 takes it whatever the entry: the model follows R113 (DESIGN CHOICE,
log entry 33). -/
def State.dropEnds (s : State) (o : SendOutcome) : State :=
  match o with
  | .taken => s.onRelink fun r => { r with drops := r.drops.tail }
  | .busy => s.onRelink fun r => { r with drops := r.drops.tail }
  | .noReceipt => s.dropUnreceipted
  | .lost => s
  | .outputFailed _ => s
  | .aborted => s

/-- DROP_OUTCOME (R113). -/
def execDropOutcome (o : SendOutcome) (s : State) : Host.Outcome State Fault Refusal :=
  .next <|
    match s.ending o with
    | some ⟨⟨_, _, .drop _⟩, _, _⟩ => (s.onLine fun l => l.endSend o).dropEnds o
    | _ => s

/-- A ROLL that was SENT is no longer pending, and restarts the gather timer in GATHER (R77, R83). -/
def State.rollSent (s : State) : State :=
  s.onRelink fun r =>
    { r with pendingRoll := none
             gatherTimer := if r.campaign = .gather then some (s.now + s.settings.g) else r.gatherTimer }

/-- The pending ROLL after its outcome (R83). -/
def State.rollEnds (s : State) (o : RollOutcome) : State :=
  match o with
  | .sent => s.rollSent
  | .lost => s
  | .outputFailed _ => s
  | .aborted => s

/-- ROLL_OUTCOME (R83). -/
def execRollOutcome (o : RollOutcome) (s : State) : Host.Outcome State Fault Refusal :=
  .next <|
    match s.ending (RollOutcome.toSend o) with
    | some ⟨⟨_, _, .roll _⟩, _, _⟩ => (s.onLine fun l => l.endSend (RollOutcome.toSend o)).rollEnds o
    | _ => s

/-! ### Timers and deadlines -/

/-- Gather close, first pass: the expiry check of one entry (R78). -/
def State.expiryCheck (i : Index) (s : State) : State :=
  let e := s.entry i
  if e.state = .pending ∧ s.settings.survives e.cls s.supply.m = false then
    if e.role = .origin then (s.moveToFailed i .expired none).addDropFor i .expired
    else s.moveToFailed i .expired none
  else s

/-- The far slot has presence HEARD (R86). -/
def State.heard (s : State) (c : CardSlot) : Bool := (s.relink.roster[c.toFin]).heard

/-- Gather close, second pass: the roster rule for one entry (R79). -/
def State.rosterRule (i : Index) (s : State) : State :=
  let e := s.entry i
  if e.state = .pending ∧ e.role = .origin ∧ s.heard e.farSlot = false then
    s.moveToDeferred i Config.missLimit
  else s

/-- Gather close, third pass: the deadline of one PENDING FAR entry (R80). -/
def State.farDeadline (i : Index) (s : State) : State :=
  let e := s.entry i
  if e.state = .pending ∧ e.role = .far then
    s.onEntry i fun e => { e with deadline := some (s.now + s.settings.p) }
  else s

/-- Gather close: the three passes, then CONTEND with the settle timer at Q (R78). -/
def State.closeGather (s : State) : State :=
  let s := ((s.eachEntry State.expiryCheck).eachEntry State.rosterRule).eachEntry State.farDeadline
  s.onRelink fun r =>
    { r with campaign := .contend, gatherTimer := none, settleTimer := .runsOutAt (s.now + s.settings.q) }

/-- GATHER_CLOSE (R78). -/
def execGatherClose (s : State) : Host.Outcome State Fault Refusal :=
  .next <|
    match s.running, s.relink.campaign, s.relink.gatherTimer with
    | true, .gather, some t => ((s.elapseTo t).closeGather).endIfSettled
    | _, _, _ => s

/-- SETTLE_TIMER_EXPIRY (R81). -/
def execSettleTimerExpiry (s : State) : Host.Outcome State Fault Refusal :=
  .next <|
    match s.running, s.relink.settleTimer with
    | true, .runsOutAt t => ((s.elapseTo t).onRelink fun r => { r with settleTimer := .runOut }).endIfSettled
    | _, _ => s

/-- The answer timer of the BIDDING entry runs out (R95). -/
def State.answerTimeout (s : State) (i : Index) : State :=
  let n := (s.entry i).attempt
  if n < Config.missLimit then s.moveToPending i n
  else (s.stopAnswerTimer i).moveToDeferred i n

/-- ANSWER_TIMER_EXPIRY (R95). -/
def execAnswerTimerExpiry (s : State) : Host.Outcome State Fault Refusal :=
  .next <|
    match s.running, s.relink.answerTimer, s.biddingEntry with
    | true, some t, some i => (s.elapseTo t).answerTimeout i
    | _, _, _ => s

/-- DEFERRED_DEADLINE (R97). -/
def execDeferredDeadline (i : Index) (s : State) : Host.Outcome State Fault Refusal :=
  .next <|
    match s.running, (s.entry i).state, (s.entry i).deadline with
    | true, .deferred, some t => ((s.elapseTo t).moveToFailed i .absent none).endIfSettled
    | _, _, _ => s

/-- ABSENT_DEADLINE (R102). -/
def execAbsentDeadline (i : Index) (s : State) : Host.Outcome State Fault Refusal :=
  .next <|
    match s.running, (s.entry i).state, (s.entry i).role, (s.entry i).deadline with
    | true, .pending, .far, some t => ((s.elapseTo t).moveToFailed i .absent none).endIfSettled
    | _, _, _, _ => s

/-- OPEN_BID_EXPIRY (R87), by the W in force at the expiry (DESIGN CHOICE, log entry 27). -/
def execOpenBidExpiry (s : State) : Host.Outcome State Fault Refusal :=
  .next <|
    match s.running, s.relink.openBid with
    | true, some b => (s.elapseTo (b.tick + s.settings.w)).onRelink fun r => { r with openBid := none }
    | _, _ => s

end Sys2Proof.Machine
end

