-- ==== Sys2Proof/Machine/Delivery.lean ====
section
/-! DEFINITION. The Delivery Unit (09_delivery_and_sequence_checking.md): a CARRY received, reads of the
DELIVERY location, and CLEAR CONDITION. -/

namespace Sys2Proof.Machine

/-! ### A CARRY received -/

/-- The sequences rx expected and the queue, as units are judged in order (R155). -/
def judgeUnit (i : Index) (circuit : Circuit) (acc : Byte × List DeliveryRecord) (u : SignalUnit) :
    Byte × List DeliveryRecord :=
  let d := (u.sequence - acc.1).toNat
  if d = 0 then (acc.1 + 1, acc.2 ++ [⟨i, circuit, u.sequence, u.content, false⟩])
  else if d ≤ 127 then (u.sequence + 1, acc.2 ++ [⟨i, circuit, u.sequence, u.content, true⟩])
  else acc

/-- The frame's units are judged against the entry's rx expected (R155). -/
def State.judgeUnits (s : State) (i : Index) (us : List SignalUnit) : State :=
  let r := us.foldl (judgeUnit i (s.entry i).circuit) ((s.entry i).rxExpected, s.delivery.queue)
  (s.onEntry i fun e => { e with rxExpected := r.1 }).onDelivery fun d => { d with queue := r.2 }

/-- The frame's units are discarded, with UNITS DISCARDED (R153, first row). -/
def State.discardInbound (s : State) (f : Frame) (entry : Byte) (n : Nat) : State :=
  (s.giveReceipt f (some .taken)).post ⟨.unitsDiscarded, entry, 2, byteOf n⟩

/-- A CARRY for an entry found (R153). -/
def State.carryFor (s : State) (f : Frame) (i : Index) (us : List SignalUnit) : State :=
  if (s.entry i).state = .failed then s.discardInbound f (indexByte i) us.length
  else if (s.entry i).state.agreed = true ∧ us.length + s.delivery.queue.length ≤ Config.deliveryPlaces then
    (s.giveReceipt f (some .taken)).judgeUnits i us
  else s.giveReceipt f (some .busy)

/-- CARRY_RECEIVED (R153). -/
def execCarryReceived (source : CardSlot) (c : Carry) (s : State) : Host.Outcome State Fault Refusal :=
  .next <|
    if s.acts source = true ∧ c.wf = true then
      let f := s.frameToMe source (.carry c)
      match s.entryFacing c.circuit source with
      | none => s.discardInbound f 0xFF c.units.length
      | some i => s.carryFor f i c.units
    else s

/-! ### Reading -/

/-- A fetch (R159): a NONE record moves into the buffer, a GAP record is copied and stays, an empty queue
gives the EMPTY marker; the position is at the first byte. -/
def DeliveryUnit.fetch (d : DeliveryUnit) : DeliveryUnit :=
  match d.queue with
  | [] => { d with buffer := none, position := 0 }
  | r :: rest =>
    if r.gap then { d with buffer := some r, position := 0 }
    else { d with queue := rest, buffer := some r, position := 0 }

/-- The byte at the read position (R158). -/
def DeliveryUnit.byte (d : DeliveryUnit) : Byte := (deliveryBytes d.buffer).getD d.position 0

/-- A read advances the position, and fetches after the last byte of the record (R158). -/
def DeliveryUnit.advance (d : DeliveryUnit) : DeliveryUnit :=
  if d.position + 1 < (deliveryBytes d.buffer).length then { d with position := d.position + 1 } else d.fetch

/-- The byte a read returns stands on D7..D0. -/
def State.putData (s : State) (b : Byte) : State := s.onPort fun p => { p with dataOut := b }

/-- DELIVERY_READ (R158); $FF outside RUN (R37); the EMPTY marker without a fetch while CRST is low (R183). -/
def execDeliveryRead (s : State) : Host.Outcome State Fault Refusal :=
  .next <|
    if s.running then
      if s.port.crstLow then s.putData 0
      else (s.putData s.delivery.byte).onDelivery DeliveryUnit.advance
    else s.putData 0xFF

/-! ### CLEAR CONDITION -/

/-- The read buffer after CLEAR CONDITION: a copy of the GAP record gives way to the EMPTY marker (R160). -/
def DeliveryUnit.dropGapCopy (d : DeliveryUnit) : DeliveryUnit :=
  match d.buffer with
  | some r => if r.gap then { d with buffer := none, position := 0 } else d
  | none => d

/-- CLEAR CONDITION (R160). -/
def State.clearGap (s : State) : State :=
  if s.active = false then s.leaveResult [rWrongMode]
  else if s.port.paramCount ≠ 0 then s.leaveResult [rBadParameter, 0]
  else
    match s.delivery.queue with
    | [] => s.leaveResult [rNothingToClear]
    | r :: rest =>
      if r.gap then
        (s.onDelivery fun d => { d.dropGapCopy with queue := rest }).leaveResult [rDone, indexByte r.entry, r.sequence]
      else s.leaveResult [rNothingToClear]

/-- CLEAR_CONDITION, command $31 (R160). -/
def execClearCondition (s : State) : Host.Outcome State Fault Refusal :=
  .next (if s.takesCommands then s.clearGap else s)

end Sys2Proof.Machine
end

