-- ==== Sys2Proof/Machine/Power.lean ====
section
/-! DEFINITION. The power events (03_supply_monitor_and_the_hold_state.md) and the calibration window
(R20 to R22): what each block does at the HOLD entry and at the WAKE end. -/

namespace Sys2Proof.Machine

/-! ### Parking and waking of the blocks -/

/-- The Slot Switch with the highway LOST, nothing queued, checked or driven (R130, R131). -/
def SlotSwitch.parked (w : SlotSwitch) : SlotSwitch :=
  { w with highway := .lost, runCount := 0, missing := 0, timing := none, checkQueue := [],
           checkers := Vector.replicate 4 none, inbound := Vector.replicate 64 Config.idleSample }

/-- The later of two phases of a frame. -/
def SendPhase.later (p q : SendPhase) : SendPhase :=
  match p, q with
  | .contending, q => q
  | .sending, .receipt => .receipt
  | .sending, _ => .sending
  | .receipt, _ => .receipt

/-- The Shelf Line Controller parks (R71): the frame on the line ends ABORTED, with an abort where it has gone as
far as SENDING (R54); the buffer is emptied; the receiver goes to HUNT. The frame has gone at least as far as the
HOLD entry says (log entry 8). -/
def ShelfLine.park (l : ShelfLine) (phase : SendPhase) : ShelfLine :=
  { l with receiver := .hunt, buffer := none, completed := none, receipt := none, closing := none,
           drive := if l.buffer.map (fun f => SendPhase.later f.phase phase) = some .sending then .abort else .released }

/-- The Shelf Line Controller at a WAKE end (R72); SILENCED stays. -/
def ShelfLine.wake (l : ShelfLine) : ShelfLine :=
  { l with receiver := .hunt, gap := 0, dominant := 0, stuck := false, buffer := none,
           completed := none, drive := .released, receipt := none, closing := none }

/-- Every in-flight mark is cleared (R149). -/
def unmark (us : List QueuedUnit) : List QueuedUnit := us.map fun u => { u with inFlight := false }

/-- An entry at a WAKE end in ACTIVE mode (R18). -/
def Entry.atWake (e : Entry) : Entry :=
  if e.state.standing then
    { e with state := .pending, late := false, noReceipt := 0, busy := 0, misses := 0, attempt := 0,
             deadline := none }
  else e

/-- The pending ROLL after a WAKE end: a ROLL COLD still pending stays (R83). -/
def rollAtWake (p : Option RollKind) : Option RollKind := if p = some .cold then some .cold else some .warm

/-- The Relink Engine's lists and records at a WAKE end in ACTIVE mode (R76). -/
def RelinkEngine.wake (r : RelinkEngine) : RelinkEngine :=
  { r with roster := Vector.replicate 32 RosterRecord.absent, openBid := none, answers := [],
           pendingRoll := rollAtWake r.pendingRoll, answerTimer := none, arrival := .none }

/-- The card reset's effect on the port (R183). -/
def State.resetPort (s : State) : State :=
  { s with
    port := { s.port with
      params := [], overlength := false, results := [], resultPos := 0, noticeBuffer := none,
      noticePos := 0, notices := [], overflow := false, mask := 0, latch := s.live,
      latchPending := false }
    delivery := { s.delivery with buffer := none, position := 0 } }

/-- A recorded edge on CRST is taken (R183). -/
def State.takeRecordedReset (s : State) : State :=
  if s.port.crstEdge then s.resetPort.onPort fun p => { p with crstEdge := false } else s

/-- The episode figure is reckoned and kept (R24, R25). -/
def State.reckonEpisode (s : State) : State :=
  s.onSupply fun u => { u with e := episodeFigure u.t u.a }

/-- The line and the highway start anew, and the outbound samples are free values (R72, R131). -/
def State.wakeLines (s : State) : State :=
  let s := s.onLine ShelfLine.wake
  let s := s.onSwitch fun w =>
    { w.parked with outbound := Vector.ofFn fun c => Config.outboundAfterWake s.freeCount c.val }
  { s with freeCount := s.freeCount + 1 }

/-- A warm wake in ACTIVE mode (R45): E, M, the table (R18), the lines, a campaign in GATHER (R76). -/
def State.warmActive (s : State) : State :=
  let s := s.reckonEpisode.onSupply fun u => { u with m := accumulate u.m u.e }
  let s := { s with table := s.table.map Entry.atWake }
  (s.wakeLines.onRelink RelinkEngine.wake).beginGather .ownWake

/-- A warm wake in CONFIG mode (R46): E alone; the roster and the open bid are emptied (R76). -/
def State.warmConfig (s : State) : State :=
  (s.reckonEpisode.wakeLines).onRelink fun r =>
    { r with roster := Vector.replicate 32 RosterRecord.absent, openBid := none, arrival := .none }

/-- A cold start (R47, R48): everything at the values of Table 3-3, the card slot from the straps. The
level of CRST and the data pins belong to the outside, and the queue to the model. -/
def State.coldStart (s : State) (straps : CardSlot) : State :=
  { State.reset with
    cardSlot := straps
    port := { CardPort.cold with crstLow := s.port.crstLow, dataOut := s.port.dataOut }
    freeCount := s.freeCount
    pending := s.pending }

/-- The move from HOLD to WAKE (R38). -/
def SupplyMonitor.rise (u : SupplyMonitor) : SupplyMonitor :=
  { u with power := .wake, mainOsc := true, warmup := 0, upSeen := false }

/-! ### The commands. The aux ticks that fell before an event are its operand (DESIGN CHOICE, log entry 7). -/

/-- POWER_ON (R35): HOLD with the retention flag clear, T counting from 0. Retained memory holds nothing,
and nothing of it is read before the cold start that follows (log entry 14). -/
def execPowerOn (s : State) : Host.Outcome State Fault Refusal :=
  .next { State.reset with
    supply := { SupplyMonitor.cold with power := .hold, mainOsc := false, window := none, retention := false }
    port := { CardPort.cold with crstLow := s.port.crstLow, dataOut := s.port.dataOut }
    freeCount := s.freeCount
    pending := s.pending }

/-- HOLD_ENTRY (R36): T to 0, the window abandoned (R22), every block parks (R71, R130, R149). The flag
falls where VRET is already low (R44). The main oscillator runs until MAIN_OSCILLATOR_STOP. R43 has the main
clock's counts and the receiver's line states lost here, and no rule gives what they hold until the WAKE end: the tick,
the warm-up count, the gap count and the dominant count stay as they stood (DESIGN CHOICE, log entry 30). -/
def execHoldEntry (phase : SendPhase) (vretLow : Bool) (s : State) : Host.Outcome State Fault Refusal :=
  .next <|
    if s.running then
      let s := s.onSupply fun u =>
        { u with power := .hold, t := 0, window := none, upSeen := false,
                 retention := u.retention && !vretLow }
      let s := (s.onLine fun l => l.park phase).onSwitch SlotSwitch.parked
      let s := (s.setUnits (unmark s.units)).onRelink fun r => { r with arrival := .none }
      s.latchChanges
    else s

/-- MAIN_OSCILLATOR_STOP (R36): the line is released, the oscillator stops, and where VDD is back up the
move to WAKE is made at this moment. -/
def execMainOscillatorStop (s : State) : Host.Outcome State Fault Refusal :=
  .next <|
    if s.supply.power = .hold ∧ s.supply.mainOsc = true then
      (s.onLine fun l => { l with drive := .released }).onSupply fun u =>
        if u.upSeen then u.rise else { u with mainOsc := false }
    else s

/-- SUPPLY_UP_IN_HOLD (R38); before the main oscillator has stopped the rise is recorded (R36; DEDUCED, log entry
15). -/
def execSupplyUpInHold (aux : Nat) (s : State) : Host.Outcome State Fault Refusal :=
  .next <|
    if s.supply.power = .hold then
      (s.countAux aux).onSupply fun u => if u.mainOsc then { u with upSeen := true } else u.rise
    else s

/-- SUPPLY_DOWN_IN_WAKE (R40): back to HOLD with T counting on; the flag falls where VRET is low (R44). -/
def execSupplyDownInWake (aux : Nat) (vretLow : Bool) (s : State) : Host.Outcome State Fault Refusal :=
  .next <|
    if s.supply.power = .wake then
      (s.countAux aux).onSupply fun u =>
        { u with power := .hold, mainOsc := false, upSeen := false, warmup := 0,
                 retention := u.retention && !vretLow }
    else s

/-- RETENTION_LOSS (R44): taken in HOLD alone. -/
def execRetentionLoss (s : State) : Host.Outcome State Fault Refusal :=
  .next (if s.supply.power = .hold then s.onSupply fun u => { u with retention := false } else s)

/-- OUTAGE_COUNTER_SATURATED (R23): T counts in HOLD and WAKE and stops at its limit. -/
def execOutageCounterSaturated (s : State) : Host.Outcome State Fault Refusal :=
  .next (if s.supply.power = .run then s else s.onSupply fun u => { u with t := Config.outageMax })

/-- WAKE_END (R41): RUN; warm wake in ACTIVE (R45) or CONFIG mode (R46), or cold start (R47). A recorded
CRST edge is the first action of a warm wake (R183). R43 has the ms tick lost at the HOLD entry and no rule gives its
value after a warm wake: it runs on from where it stood (DESIGN CHOICE, log entry 30). The warm-up count stays at 4096
once warm-up is complete (log entry 30). -/
def execWakeEnd (aux : Nat) (straps : CardSlot) (s : State) : Host.Outcome State Fault Refusal :=
  .next <|
    if s.supply.power = .wake then
      if s.supply.retention then
        let s := (s.countAux aux).onSupply fun u =>
          { u with power := .run, warmup := Config.warmupCycles, window := some 0 }
        let s := s.takeRecordedReset
        (if s.active then s.warmActive else s.warmConfig).latchChanges
      else s.coldStart straps
    else s

/-- CALIBRATION_WINDOW_END (R20): 64 ticks are over and the next window begins. -/
def execCalibrationWindowEnd (count : Nat) (s : State) : Host.Outcome State Fault Refusal :=
  .next <|
    if s.running then
      let s := s.elapse (Config.windowTicks - s.supply.window.getD 0)
      let s := s.onSupply fun u =>
        if Config.calibrationMin ≤ count ∧ count ≤ Config.calibrationMax then
          { u with a := count, calFault := false, window := some 0 }
        else { u with calFault := true, window := some 0 }
      s.latchChanges
    else s

end Sys2Proof.Machine
end

