-- ==== Sys2Proof/Machine/Port.lean ====
section
/-! DEFINITION. The Card Port's own commands and accesses (10_the_card_port.md): configuration and START,
the reading commands, the latch and the mask, PARAM, RESULT, STATUS and NOTICE, and the card reset. -/

namespace Sys2Proof.Machine

/-! ### Configuration (R169 to R171) and START (R172) -/

/-- The four values of SET TIMING as given: G, W, P, Q (R169). -/
def timingGiven (ps : List Byte) : Nat × Nat × Nat × Nat :=
  (paramWord ps 1, (paramByte ps 3).toNat, paramWord ps 4, paramWord ps 6)

/-- The four values as stored: each moved into its range of Table 10-5. -/
def timingStored (v : Nat × Nat × Nat × Nat) : Nat × Nat × Nat × Nat :=
  (clamp 20 2000 v.1, clamp 2 50 v.2.1, clamp 100 60000 v.2.2.1, clamp 10 1000 v.2.2.2)

/-- DONE, or CLAMPED where a value was moved (R169 to R171). -/
def doneOrClamped (moved : Bool) : Byte := if moved then rClamped else rDone

/-- SET TIMING (R169). -/
def State.setTimingCmd (s : State) : State :=
  if s.active then s.leaveResult [rWrongMode]
  else if s.port.paramCount ≠ 7 then s.leaveResult [rBadParameter, 0]
  else
    let v := timingGiven s.port.params
    let w := timingStored v
    (s.onPort fun p => { p with settings := { p.settings with g := w.1, w := w.2.1, p := w.2.2.1, q := w.2.2.2 } }).leaveResult
      (doneOrClamped (w != v) :: (bytes16 w.1 ++ [byteOf w.2.1] ++ bytes16 w.2.2.1 ++ bytes16 w.2.2.2))

/-- SET_TIMING, command $10 (R169). -/
def execSetTiming (s : State) : Host.Outcome State Fault Refusal :=
  .next (if s.takesCommands then s.setTimingCmd else s)

/-- A class limit is stored (R170). -/
def Settings.setLimit (g : Settings) (cls : BitVec 3) (v : Nat) : Settings :=
  { g with limits := g.limits.set cls.toFin v }

/-- SET CLASS LIMIT (R170). -/
def State.setClassLimitCmd (s : State) : State :=
  if s.active then s.leaveResult [rWrongMode]
  else if s.port.paramCount ≠ 4 then s.leaveResult [rBadParameter, 0]
  else if 7 < (paramByte s.port.params 1).toNat then s.leaveResult [rBadParameter, 1]
  else
    let given := natOfBytes (s.port.params.drop 1)
    let stored := min given Config.figureCap
    (s.onPort fun p =>
      { p with settings := p.settings.setLimit ((paramByte s.port.params 1).setWidth 3) stored }).leaveResult
      ([doneOrClamped (stored != given), paramByte s.port.params 1] ++ bytes24 stored)

/-- SET_CLASS_LIMIT, command $11 (R170). -/
def execSetClassLimit (s : State) : Host.Outcome State Fault Refusal :=
  .next (if s.takesCommands then s.setClassLimitCmd else s)

/-- SET PACKING (R171). -/
def State.setPackingCmd (s : State) : State :=
  if s.active then s.leaveResult [rWrongMode]
  else if s.port.paramCount ≠ 1 then s.leaveResult [rBadParameter, 0]
  else
    let given := (paramByte s.port.params 1).toNat
    let stored := clamp 1 4 given
    (s.onPort fun p => { p with settings := { p.settings with k := stored } }).leaveResult
      [doneOrClamped (stored != given), byteOf stored]

/-- SET_PACKING, command $12 (R171). -/
def execSetPacking (s : State) : Host.Outcome State Fault Refusal :=
  .next (if s.takesCommands then s.setPackingCmd else s)

/-- START (R172): ACTIVE mode, a ROLL COLD pending (R83), a campaign in GATHER with cause START (R75). -/
def State.startCmd (s : State) : State :=
  if s.active then s.leaveResult [rWrongMode]
  else if s.port.paramCount ≠ 0 then s.leaveResult [rBadParameter, 0]
  else
    let s := s.onPort fun p => { p with mode := .active }
    let s := s.onRelink fun r => { r with pendingRoll := some .cold }
    (s.beginGather .start).leaveResult [rDone]

/-- START, command $1F (R172). -/
def execStart (s : State) : Host.Outcome State Fault Refusal :=
  .next (if s.takesCommands then s.startCmd else s)

/-! ### The latch and the mask (R180, R181) -/

/-- The pending state ends, and the live values are latched again where they differ (R180). -/
def State.rearm (s : State) : State := (s.onPort fun p => { p with latchPending := false }).latchChanges

/-- RESET LATCH (R180). -/
def State.resetLatchCmd (s : State) : State :=
  if s.port.paramCount ≠ 0 then s.leaveResult [rBadParameter, 0]
  else s.rearm.leaveResult [rDone, s.rearm.latchByte]

/-- RESET_LATCH, command $40 (R180). -/
def execResetLatch (s : State) : Host.Outcome State Fault Refusal :=
  .next (if s.takesCommands then s.resetLatchCmd else s)

/-- SET ATTENTION (R181). -/
def State.setAttentionCmd (s : State) : State :=
  if s.port.paramCount ≠ 1 then s.leaveResult [rBadParameter, 0]
  else if 7 < (paramByte s.port.params 1).toNat then s.leaveResult [rBadParameter, 1]
  else
    (s.onPort fun p => { p with mask := (paramByte s.port.params 1).setWidth 3 }).leaveResult
      [rDone, paramByte s.port.params 1]

/-- SET_ATTENTION, command $41 (R181). -/
def execSetAttention (s : State) : Host.Outcome State Fault Refusal :=
  .next (if s.takesCommands then s.setAttentionCmd else s)

/-! ### The reading commands (R173 to R175) -/

/-- The four presence bytes: card slots 31..24 first, 7..0 last (R173). -/
def State.presenceBytes (s : State) : List Byte :=
  [presenceByte s.relink.roster 24, presenceByte s.relink.roster 16, presenceByte s.relink.roster 8,
    presenceByte s.relink.roster 0]

/-- READ ROSTER (R173). -/
def State.readRosterCmd (s : State) : State :=
  if s.port.paramCount = 0 then s.leaveResult (rDone :: s.presenceBytes)
  else if s.port.paramCount ≠ 1 then s.leaveResult [rBadParameter, 0]
  else if 31 < (paramByte s.port.params 1).toNat then s.leaveResult [rBadParameter, 1]
  else
    let c : CardSlot := (paramByte s.port.params 1).setWidth 5
    s.leaveResult (rDone :: rosterRecordBytes c s.relink.roster[c.toFin])

/-- READ_ROSTER, command $42 (R173). -/
def execReadRoster (s : State) : Host.Outcome State Fault Refusal :=
  .next (if s.takesCommands then s.readRosterCmd else s)

/-- READ CAMPAIGN (R174). -/
def State.readCampaignCmd (s : State) : State :=
  if s.port.paramCount ≠ 0 then s.leaveResult [rBadParameter, 0]
  else s.leaveResult (rDone :: s.campaignBytes)

/-- READ_CAMPAIGN, command $43 (R174). -/
def execReadCampaign (s : State) : Host.Outcome State Fault Refusal :=
  .next (if s.takesCommands then s.readCampaignCmd else s)

/-- READ FIGURES (R175). -/
def State.readFiguresCmd (s : State) : State :=
  if s.port.paramCount ≠ 0 then s.leaveResult [rBadParameter, 0]
  else s.leaveResult (rDone :: s.figureBytes)

/-- READ_FIGURES, command $44 (R175). -/
def execReadFigures (s : State) : Host.Outcome State Fault Refusal :=
  .next (if s.takesCommands then s.readFiguresCmd else s)

/-- UNKNOWN_COMMAND (R167): BAD-PARAMETER with detail $FF, and nothing else. -/
def execUnknownCommand (code : Byte) (s : State) : Host.Outcome State Fault Refusal :=
  .next <|
    if s.takesCommands = true ∧ Config.commandCodes.contains code = false then
      s.leaveResult [rBadParameter, 0xFF]
    else s

/-! ### Accesses -/

/-- A byte written to PARAM (R166). -/
def CardPort.append (p : CardPort) (v : Byte) : CardPort :=
  if p.params.length < Config.paramPlaces then { p with params := p.params ++ [v] }
  else { p with overlength := true }

/-- PARAM_WRITE (R166); ignored outside RUN (R37) and while CRST is low (R183). -/
def execParamWrite (value : Byte) (s : State) : Host.Outcome State Fault Refusal :=
  .next (if s.takesCommands then s.onPort fun p => p.append value else s)

/-- A read of RESULT (R168). -/
def State.readResult (s : State) : State :=
  match s.port.results[s.port.resultPos]? with
  | some b => (s.putData b).onPort fun p => { p with resultPos := p.resultPos + 1 }
  | none => s.putData 0

/-- RESULT_READ (R168); $FF outside RUN (R37); $00 while CRST is low (R183). -/
def execResultRead (s : State) : Host.Outcome State Fault Refusal :=
  .next <|
    if s.running then if s.port.crstLow then s.putData 0 else s.readResult
    else s.putData 0xFF

/-- STATUS_READ (R165): the byte, and the overflow flag cleared; $FF outside RUN (R37). -/
def execStatusRead (s : State) : Host.Outcome State Fault Refusal :=
  .next <|
    if s.running then (s.putData s.statusByte).onPort fun p => { p with overflow := false }
    else s.putData 0xFF

/-- A fetch of the NOTICE read buffer (R177). -/
def CardPort.fetchNotice (p : CardPort) : CardPort :=
  match p.notices with
  | [] => { p with noticeBuffer := none, noticePos := 0 }
  | n :: rest => { p with notices := rest, noticeBuffer := some n, noticePos := 0 }

/-- The byte of NOTICE at the read position (R177). -/
def CardPort.noticeByte (p : CardPort) : Byte := (noticeBytes p.noticeBuffer).getD p.noticePos 0

/-- A read advances the position, and fetches after the last byte of the record (R177). -/
def CardPort.advanceNotice (p : CardPort) : CardPort :=
  if p.noticePos + 1 < (noticeBytes p.noticeBuffer).length then { p with noticePos := p.noticePos + 1 }
  else p.fetchNotice

/-- NOTICE_READ (R177); $FF outside RUN (R37); the EMPTY marker without a fetch while CRST is low (R183). -/
def execNoticeRead (s : State) : Host.Outcome State Fault Refusal :=
  .next <|
    if s.running then
      if s.port.crstLow then s.putData 0
      else (s.putData s.port.noticeByte).onPort CardPort.advanceNotice
    else s.putData 0xFF

/-- A read of LATCH: the latch byte, in RUN as it stands and while CRST is low as usual (R178, R183); $FF outside
RUN (R37). It changes nothing but D7..D0 (R164). -/
def State.readLatch (s : State) : State := s.putData s.latchRead

/-- A read of locations 5 to 7: $00 in RUN (Table 10-1), $FF outside RUN (R37). It changes nothing but D7..D0. -/
def State.readUnused (s : State) : State := s.putData (if s.running then 0 else 0xFF)

/-- A read strobe, by its location (Table 10-1). The table has no row for a read of locations 4 to 7, so those
reads are no commands (log entry 20). -/
def readAccess (location : BitVec 3) (s : State) : Host.Outcome State Fault Refusal :=
  match location.toNat with
  | 0 => execResultRead s
  | 1 => execStatusRead s
  | 2 => execNoticeRead s
  | 3 => execDeliveryRead s
  | 4 => .next s.readLatch
  | _ => .next s.readUnused

/-- IGNORED_WRITE (R164): it changes nothing. -/
def execIgnoredWrite (_location : BitVec 3) (_value : Byte) (s : State) : Host.Outcome State Fault Refusal :=
  .next s

/-! ### The card reset (R183) -/

/-- CARD_RESET: a falling edge on CRST, taken in RUN; recorded in HOLD and WAKE (R183). With CRST already
low there is no falling edge (log entry 16). -/
def execCardReset (s : State) : Host.Outcome State Fault Refusal :=
  .next <|
    if s.port.crstLow then s
    else if s.running then s.resetPort.onPort fun p => { p with crstLow := true }
    else s.onPort fun p => { p with crstLow := true, crstEdge := true }

/-- CARD_RESET_RELEASE: CRST rises (R183). -/
def execCardResetRelease (s : State) : Host.Outcome State Fault Refusal :=
  .next (s.onPort fun p => { p with crstLow := false })

end Sys2Proof.Machine
end

