-- ==== Sys2Proof/Machine/Release.lean ====
section
/-! DEFINITION. The Release Engine's commands (08_the_unit_queue_and_release.md): SUBMIT UNIT and the
outcome of a CARRY. Choosing and packing a CARRY stand in `Machine/Line.lean` (R138 to R140). -/

namespace Sys2Proof.Machine

/-! ### SUBMIT UNIT -/

/-- SUBMIT UNIT passes its tests (R136): the unit joins the tail with the entry's tx sequence, which then
rises by one (R134). -/
def State.acceptUnit (s : State) (i : Index) (content : List Byte) : State :=
  let seq := (s.entry i).txSeq
  let s := (s.setUnits (s.units ++ [⟨i, seq, content, false⟩])).onEntry i fun e => { e with txSeq := e.txSeq + 1 }
  s.leaveResult [rDone, seq, byteOf s.units.length]

/-- SUBMIT UNIT for the index its first byte names (R135, cases 4 to 6). -/
def State.submitTo (s : State) (i : Index) (content : List Byte) : State :=
  match (s.entry i).state with
  | .empty => s.leaveResult [rNoEntry, 0, 0]
  | .failed => s.leaveResult (rNoEntry :: failureBytes (s.entry i).failure)
  | _ =>
    if s.units.length < Config.unitPlaces then s.acceptUnit i content else s.leaveResult [rFull]

/-- SUBMIT UNIT (R135). -/
def State.submit (s : State) : State :=
  if s.active = false then s.leaveResult [rWrongMode]
  else if s.port.paramCount < 2 ∨ 9 < s.port.paramCount then s.leaveResult [rBadParameter, 0]
  else
    match indexOf (paramByte s.port.params 1) with
    | none => s.leaveResult [rBadParameter, 1]
    | some i => s.submitTo i (s.port.params.drop 1)

/-- SUBMIT_UNIT, command $30 (R136). -/
def execSubmitUnit (s : State) : Host.Outcome State Fault Refusal :=
  .next (if s.takesCommands then s.submit else s)

/-! ### The outcome of a CARRY -/

/-- The entry that the marked units belong to, where any unit is marked (R142). -/
def State.markedEntry (s : State) : Option Index := (s.units.find? fun u => u.inFlight).map QueuedUnit.entry

/-- The strike counts of an entry whose CARRY was taken (R143). -/
def Entry.unstruck (e : Entry) : Entry := { e with noReceipt := 0, busy := 0 }

/-- A busy strike, and the strike-out at 64 (R144, R146). -/
def State.strikeBusy (s : State) (i : Index) : State :=
  let s := s.onEntry i fun e => { e with busy := e.busy + 1, noReceipt := 0 }
  if Config.busyLimit ≤ (s.entry i).busy then s.moveToPending i 0 else s

/-- A no-receipt strike, and the strike-out at 4 (R145, R146). -/
def State.strikeNoReceipt (s : State) (i : Index) : State :=
  let s := s.onEntry i fun e => { e with noReceipt := e.noReceipt + 1, busy := 0 }
  if Config.noReceiptLimit ≤ (s.entry i).noReceipt then s.moveToPending i 0 else s

/-- A CARRY's outcome for the entry of the marked units; strikes count only while the entry is JOINING,
LIVE or PARKED (R142 to R147). -/
def State.carryEnds (s : State) (i : Index) (o : SendOutcome) : State :=
  let agreed := (s.entry i).state.agreed
  match o with
  | .taken =>
    let s := s.setUnits (s.units.filter fun u => !u.inFlight)
    if agreed then s.onEntry i Entry.unstruck else s
  | .busy => if agreed then s.unmarkUnits.strikeBusy i else s.unmarkUnits
  | .noReceipt => if agreed then s.unmarkUnits.strikeNoReceipt i else s.unmarkUnits
  | .lost => s.unmarkUnits
  | .outputFailed _ => s.unmarkUnits
  | .aborted => s.unmarkUnits

/-- CARRY_OUTCOME (R142): with no unit marked the outcome is ignored. -/
def execCarryOutcome (o : SendOutcome) (s : State) : Host.Outcome State Fault Refusal :=
  .next <|
    match s.ending o with
    | some ⟨⟨_, _, .carry _⟩, _, _⟩ =>
      let s := s.onLine fun l => l.endSend o
      match s.markedEntry with
      | some i => s.carryEnds i o
      | none => s
    | _ => s

end Sys2Proof.Machine
end

