-- ==== Sys2Proof/Machine/Table.lean ====
section
/-! DEFINITION. The Circuit Table's commands (01_the_circuit_table.md): WRITE ENTRY, CLEAR ENTRY and READ
ENTRY. -/

namespace Sys2Proof.Machine

/-! ### WRITE ENTRY -/

/-- The clash kind and clashing entry of a new entry at an index (R7, cases 4 to 7). -/
def State.duplicate (s : State) (i : Index) (e : Entry) : Option (Byte × Index) :=
  if (s.entry i).state ≠ .empty then some (1, i)
  else
    match s.clashing (fun x => x.circuit == e.circuit), s.clashing (fun x => x.txSlot == e.txSlot),
        s.clashing (fun x => x.channel == e.channel) with
    | some j, _, _ => some (2, j)
    | none, some j, _ => some (3, j)
    | none, none, some j => some (4, j)
    | none, none, none => none

/-- The result bytes of a WRITE ENTRY that passed (R10). -/
def writtenResult (e : Entry) : List Byte :=
  [rDone, e.state.code, hiByte e.key, loByte e.key, hiByte e.fingerprint, loByte e.fingerprint]

/-- The entry is written: PARKED with a check asked for in STEADY (R8), PENDING otherwise (R9). -/
def State.placeEntry (s : State) (i : Index) (e : Entry) : State :=
  if s.relink.campaign = .steady then
    ((s.setEntry i e).requestCheck i).leaveResult (writtenResult e)
  else
    let e := { e with state := .pending, deadline := s.pendingDeadline e.role }
    (s.setEntry i e).leaveResult (writtenResult e)

/-- WRITE ENTRY for an index in range (R7, cases 4 to 7). -/
def State.writeAt (s : State) (i : Index) (e : Entry) : State :=
  match s.duplicate i e with
  | some (kind, j) => s.leaveResult [rDuplicate, kind, indexByte j]
  | none => s.placeEntry i e

/-- WRITE ENTRY (R7). -/
def State.write (s : State) : State :=
  if s.active = false then s.leaveResult [rWrongMode]
  else if s.port.paramCount ≠ 12 then s.leaveResult [rBadParameter, 0]
  else
    match badPosition s.port.params, indexOf (paramByte s.port.params 1) with
    | some n, _ => s.leaveResult [rBadParameter, byteOf n]
    | none, none => s.leaveResult [rBadParameter, 1]
    | none, some i => s.writeAt i (writtenEntry s.cardSlot s.port.params)

/-- WRITE_ENTRY, command $20 (R7). -/
def execWriteEntry (s : State) : Host.Outcome State Fault Refusal :=
  .next (if s.takesCommands then s.write else s)

/-! ### CLEAR ENTRY -/

/-- The frame on the line loses its owner with the entry, so that its outcome finds none, be the entry written
anew alike (R13). -/
def ShelfLine.forget (l : ShelfLine) (i : Index) : ShelfLine :=
  { l with buffer := l.buffer.map fun f => if f.entry = some i then { f with entry := none } else f }

/-- The entry returns to EMPTY (R11, R12). -/
def State.emptyEntry (s : State) (i : Index) : State :=
  (s.setEntry i Entry.cleared).onLine fun l => l.forget i

/-- CLEAR ENTRY of an entry neither EMPTY nor FAILED (R12). -/
def State.clearStanding (s : State) (i : Index) : State :=
  let s := s.addDropFor i .cleared
  let s := ((s.stopAnswerTimer i).stopDrive i).onSwitch fun w => w.withdraw i
  let s := (s.removeAnswer i).discardUnits i
  ((s.emptyEntry i).endIfSettled).leaveResult [rDone]

/-- CLEAR ENTRY by the entry's state (R11, R12); NO-ENTRY has no detail (DEDUCED, log entry 25). -/
def State.clearAt (s : State) (i : Index) : State :=
  match (s.entry i).state with
  | .empty => s.leaveResult [rNoEntry]
  | .failed => ((s.discardUnits i).emptyEntry i).leaveResult [rDone]
  | _ => s.clearStanding i

/-- CLEAR ENTRY (R11). -/
def State.clear (s : State) : State :=
  if s.active = false then s.leaveResult [rWrongMode]
  else if s.port.paramCount ≠ 1 then s.leaveResult [rBadParameter, 0]
  else
    match indexOf (paramByte s.port.params 1) with
    | none => s.leaveResult [rBadParameter, 1]
    | some i => s.clearAt i

/-- CLEAR_ENTRY, command $21 (R12). -/
def execClearEntry (s : State) : Host.Outcome State Fault Refusal :=
  .next (if s.takesCommands then s.clear else s)

/-! ### READ ENTRY -/

/-- READ ENTRY (R14). -/
def State.read (s : State) : State :=
  if s.active = false then s.leaveResult [rWrongMode]
  else if s.port.paramCount ≠ 1 then s.leaveResult [rBadParameter, 0]
  else
    match indexOf (paramByte s.port.params 1) with
    | none => s.leaveResult [rBadParameter, 1]
    | some i => s.leaveResult (rDone :: entryRecord s.now i (s.entry i))

/-- READ_ENTRY, command $22 (R14). -/
def execReadEntry (s : State) : Host.Outcome State Fault Refusal :=
  .next (if s.takesCommands then s.read else s)

end Sys2Proof.Machine
end

