-- ==== Sys2Proof/Machine/Dispatch.lean ====
section
/-! DEFINITION. The meaning of each command: one arm for each constructor of `Instr`. -/

namespace Sys2Proof.Machine

def exec (i : Instr) (s : State) : Host.Outcome State Fault Refusal :=
  match i with
  | .powerOn => Sys2Proof.Machine.execPowerOn s
  | .holdEntry phase vretLow => Sys2Proof.Machine.execHoldEntry phase vretLow s
  | .mainOscillatorStop => Sys2Proof.Machine.execMainOscillatorStop s
  | .supplyUpInHold aux => Sys2Proof.Machine.execSupplyUpInHold aux s
  | .supplyDownInWake aux vretLow => Sys2Proof.Machine.execSupplyDownInWake aux vretLow s
  | .retentionLoss => Sys2Proof.Machine.execRetentionLoss s
  | .outageCounterSaturated => Sys2Proof.Machine.execOutageCounterSaturated s
  | .wakeEnd aux straps => Sys2Proof.Machine.execWakeEnd aux straps s
  | .calibrationWindowEnd count => Sys2Proof.Machine.execCalibrationWindowEnd count s
  | .offerPoint => Sys2Proof.Machine.execOfferPoint s
  | .shelfLineStuck => Sys2Proof.Machine.execShelfLineStuck s
  | .framingFault cause gap => Sys2Proof.Machine.execFramingFault cause gap s
  | .crcFailure bytes crc gap => Sys2Proof.Machine.execCrcFailure bytes crc gap s
  | .malformedFrame bytes gap => Sys2Proof.Machine.execMalformedFrame bytes gap s
  | .frameObserved origin f => Sys2Proof.Machine.execFrameObserved origin f s
  | .rollColdReceived source figure => Sys2Proof.Machine.execRollColdReceived source figure s
  | .rollWarmReceived source figure => Sys2Proof.Machine.execRollWarmReceived source figure s
  | .bidReceived source b => Sys2Proof.Machine.execBidReceived source b s
  | .answerReceived source a => Sys2Proof.Machine.execAnswerReceived source a s
  | .dropReceived source d => Sys2Proof.Machine.execDropReceived source d s
  | .carryReceived source c => Sys2Proof.Machine.execCarryReceived source c s
  | .bidOutcome o => Sys2Proof.Machine.execBidOutcome o s
  | .answerOutcome o => Sys2Proof.Machine.execAnswerOutcome o s
  | .dropOutcome o => Sys2Proof.Machine.execDropOutcome o s
  | .rollOutcome o => Sys2Proof.Machine.execRollOutcome o s
  | .carryOutcome o => Sys2Proof.Machine.execCarryOutcome o s
  | .gatherClose => Sys2Proof.Machine.execGatherClose s
  | .settleTimerExpiry => Sys2Proof.Machine.execSettleTimerExpiry s
  | .answerTimerExpiry => Sys2Proof.Machine.execAnswerTimerExpiry s
  | .deferredDeadline entry => Sys2Proof.Machine.execDeferredDeadline entry s
  | .absentDeadline entry => Sys2Proof.Machine.execAbsentDeadline entry s
  | .openBidExpiry => Sys2Proof.Machine.execOpenBidExpiry s
  | .sync cycles frame => Sys2Proof.Machine.execSync cycles frame s
  | .syncMissing frame => Sys2Proof.Machine.execSyncMissing frame s
  | .runTimeout => Sys2Proof.Machine.execRunTimeout s
  | .quietCheckResult checker reading => Sys2Proof.Machine.execQuietCheckResult checker reading s
  | .setTiming => Sys2Proof.Machine.execSetTiming s
  | .setClassLimit => Sys2Proof.Machine.execSetClassLimit s
  | .setPacking => Sys2Proof.Machine.execSetPacking s
  | .start => Sys2Proof.Machine.execStart s
  | .writeEntry => Sys2Proof.Machine.execWriteEntry s
  | .clearEntry => Sys2Proof.Machine.execClearEntry s
  | .readEntry => Sys2Proof.Machine.execReadEntry s
  | .submitUnit => Sys2Proof.Machine.execSubmitUnit s
  | .clearCondition => Sys2Proof.Machine.execClearCondition s
  | .resetLatch => Sys2Proof.Machine.execResetLatch s
  | .setAttention => Sys2Proof.Machine.execSetAttention s
  | .readRoster => Sys2Proof.Machine.execReadRoster s
  | .readCampaign => Sys2Proof.Machine.execReadCampaign s
  | .readFigures => Sys2Proof.Machine.execReadFigures s
  | .unknownCommand code => Sys2Proof.Machine.execUnknownCommand code s
  | .paramWrite value => Sys2Proof.Machine.execParamWrite value s
  | .resultRead => Sys2Proof.Machine.execResultRead s
  | .statusRead => Sys2Proof.Machine.execStatusRead s
  | .noticeRead => Sys2Proof.Machine.execNoticeRead s
  | .deliveryRead => Sys2Proof.Machine.execDeliveryRead s
  | .ignoredWrite location value => Sys2Proof.Machine.execIgnoredWrite location value s
  | .cardReset => Sys2Proof.Machine.execCardReset s
  | .cardResetRelease => Sys2Proof.Machine.execCardResetRelease s

end Sys2Proof.Machine
end

