-- ==== Sys2Proof/Safety.lean ====
section
/-! DEFINITION. The terms the claims use: what the moves common to many causes leave behind, written as
one closed form each, and the rules that hold of the part at every moment. A safe run is one in which
every state meets these rules. -/

namespace Sys2Proof.Machine

/-! ### Closed forms of the shared moves -/

/-- The Notice Queue after notices are posted in order: those that find room, and the overflow flag set
where one did not (R176). -/
def CardPort.posted (p : CardPort) (ns : List Notice) : CardPort :=
  { p with
    notices := p.notices ++ ns.take (Config.noticePlaces - p.notices.length)
    overflow := p.overflow || decide (Config.noticePlaces - p.notices.length < ns.length) }

/-- UNITS DISCARDED for the entry's outbound units, where it has any (R16). -/
def State.discardNotices (s : State) (i : Index) : List Notice :=
  if s.units.any fun u => u.entry == i then
    [⟨.unitsDiscarded, BitVec.ofNat 8 i.val, 1, BitVec.ofNat 8 (s.units.filter fun u => u.entry == i).length⟩]
  else []

/-- The inbound samples once the entry is driven no more: $FF for its line channel where it was LIVE (R124). -/
def State.inboundWithout (s : State) (i : Index) : Vector Byte 64 :=
  if (s.entry i).state = .live then s.switch.inbound.set (s.entry i).channel.toFin Config.idleSample
  else s.switch.inbound

/-- The Slot Switch once the entry is neither driven nor checked (R124, R128). -/
def State.switchWithout (s : State) (i : Index) : SlotSwitch :=
  SlotSwitch.withdraw { s.switch with inbound := s.inboundWithout i } i

/-- The answer timer once the entry is out of BIDDING (R95). -/
def State.timerWithout (s : State) (i : Index) : Option Nat :=
  if (s.entry i).state = .bidding then none else s.relink.answerTimer

/-- An entry moved into FAILED, and all that R15, R16 and R82 take with it. -/
def State.failedAs (s : State) (i : Index) (reason : FailReason) (far : Option FarReason) : State :=
  { s with
    table := s.table.set i
      { s.entry i with state := .failed, failure := some ⟨reason, far⟩, deadline := none }
    relink := { s.relink with
      answerTimer := s.timerWithout i
      failed := if s.relink.campaign = .steady then s.relink.failed else min (s.relink.failed + 1) 255 }
    switch := s.switchWithout i
    units := s.units.filter fun u => u.entry != i
    port := s.port.posted (⟨.failed, BitVec.ofNat 8 i.val, reason.code, farCode far⟩ :: s.discardNotices i) }

/-- The Relink Engine once a campaign has begun in CONTEND for an entry (R74, R75). -/
def State.begunForEntry (s : State) : RelinkEngine :=
  { s.relink with
    joined := 0, failed := 0, late := 0, front := none, campaign := .contend,
    settleTimer := .runsOutAt (s.now + s.settings.q) }

/-- An entry moved into PENDING, and all that R17, R75 and R80 take with it. -/
def State.pendingAs (s : State) (i : Index) (misses : Nat) : State :=
  { s with
    table := s.table.set i
      { s.entry i with
        state := .pending, late := false, noReceipt := 0, busy := 0, misses := misses,
        deadline :=
          if (s.entry i).role = .far ∧ s.relink.campaign ≠ .gather then some (s.now + s.settings.p) else none }
    relink := { (if s.relink.campaign = .steady then s.begunForEntry else s.relink) with
      answerTimer := s.timerWithout i }
    switch := s.switchWithout i
    port := if s.relink.campaign = .steady then s.port.posted [⟨.campaignBegun, BitVec.ofNat 8 i.val, 4, 0⟩] else s.port }

/-- The campaign ended, as R81 gives it. -/
def State.endedAs (s : State) : State :=
  { s with
    supply := { s.supply with m := 0 }
    relink := { s.relink with campaign := .steady, front := none, settleTimer := .stopped }
    port := s.port.posted
      [⟨.campaignEnded, BitVec.ofNat 8 s.relink.joined, BitVec.ofNat 8 s.relink.failed, BitVec.ofNat 8 s.relink.late⟩] }

/-- Both conditions of the move from CONTEND to STEADY hold (R81). -/
def State.settled (s : State) : Prop :=
  s.relink.campaign = .contend ∧ s.relink.settleTimer = .runOut ∧ ∀ i : Index, (s.entry i).state.relinking = false

/-- `t` is `s` after the move to STEADY where both conditions of R81 hold, and `s` itself otherwise. -/
def Settles (s t : State) : Prop := (s.settled → t = s.endedAs) ∧ (¬ s.settled → t = s)

/-- The port once the latch has seen the live values (R178). -/
def CardPort.latching (p : CardPort) (live : LatchItems) : CardPort :=
  if p.latchPending = true ∨ p.latch = live then p else { p with latch := live, latchPending := true }

/-- The port as a command leaves it: its result bytes, the position at the first, an empty buffer (R167). -/
def CardPort.answered (p : CardPort) (bytes : List Byte) : CardPort :=
  { p with results := bytes, resultPos := 0, params := [], overlength := false }

/-- The entry goes LIVE with CONNECTED (R101, R111, R127). -/
def State.connectedAs (s : State) (i : Index) : State :=
  { s with
    table := s.table.set i { s.entry i with state := .live }
    port := s.port.posted [⟨.connected, BitVec.ofNat 8 i.val, 0, 0⟩] }

/-- The entry at an index replaced. -/
def State.withEntry (s : State) (i : Index) (e : Entry) : State := { s with table := s.table.set i e }

/-- The part on a line that is stuck, that carries a frame which fails, or on which another station has this card's own
slot: a frame of this card that was CONTENDING or SENDING has ended LOST, the marks of a CARRY cleared (R55, R61, R66, R67,
R147; log entry 32). -/
def State.yielded (s : State) : State :=
  match s.line.buffer with
  | none => s
  | some f =>
    if f.phase = .receipt then s
    else { s with
      line := { s.line with buffer := none, drive := .released }
      units :=
        match f.frame.body with
        | .carry _ => s.units.map fun u => { u with inFlight := false }
        | _ => s.units }

/-- The line once the observer has a frame heard, at the end of its CRC: RECEIVING, its start bit read, and the receipt
field begins, in which the receipt for this same frame stands, and no other (R62, R64). -/
def ShelfLine.heard (l : ShelfLine) (f : Frame) : ShelfLine :=
  { l with
    receiver := .receiving, gap := 0, dominant := 1, stuck := false
    receipt := if l.closing = some ⟨f, .acted⟩ then l.receipt else none
    closing := some ⟨f, if l.closing = some ⟨f, .acted⟩ then .both else .observed⟩ }

/-- The receipt field driven, or left recessive, for the frame just heard, which the receiver is at the end of, its start
bit read at an offer point, and so with SHELF LINE NORMAL (R55, R63, R64; log entry 28); the outcome of a frame of this
card on the line comes after it (R148). -/
def State.receipted (s : State) (f : Frame) (r : Option Receipt) : State :=
  { s with
    line := { s.line with
      receiver := .receiving, gap := 0, dominant := 1, stuck := false, receipt := r
      closing := some ⟨f, if s.line.closing = some ⟨f, .observed⟩ then .both else .acted⟩ }
    port := s.port.latching { s.live with stuck := false } }

/-- The line after a fault in a frame of another station: HUNT, no receipt driven, SHELF LINE NORMAL since the offer point
before its start bit; where the last bit read was dominant, so many of them in a row (R53, R55, R57, R59; log entry 8). -/
def State.hunting (s : State) (gap run : Nat) : State :=
  { s.yielded with
    line := { s.yielded.line with
      receiver := .hunt, gap := gap, dominant := if gap = 0 then run else 0, stuck := false
      receipt := none, closing := none }
    port := s.port.latching { s.live with stuck := false } }

/-- An answer queued (R103). -/
def State.queued (s : State) (a : AnswerItem) : State :=
  { s with relink := { s.relink with answers := queueAnswerItem s.relink.answers a } }

/-- The answers queued for an entry removed, and no REFUSE-UNKNOWN item, which has no entry (R105). -/
def State.unanswered (s : State) (i : Index) : State :=
  { s with relink := { s.relink with
      answers := s.relink.answers.filter fun a =>
        !(a.circuit == (s.entry i).circuit && a.origin == (s.entry i).farSlot && a.verdict != .refuseUnknown) } }

/-- The line once an entry is cleared: the frame on it has no owner any more where that was the entry (R13). -/
def State.lineWithout (s : State) (i : Index) : ShelfLine :=
  { s.line with
    buffer := s.line.buffer.map fun f => { f with entry := if f.entry = some i then none else f.entry } }

/-- A DROP added, absorbed by one listed, or abandoned with a notice (R112). -/
def State.dropped (s : State) (circuit : Circuit) (far : CardSlot) (reason : DropReason) : State :=
  if ∃ d ∈ s.relink.drops, d.circuit = circuit ∧ d.far = far then s
  else if s.relink.drops.length < 64 then
    { s with relink := { s.relink with drops := s.relink.drops ++ [⟨circuit, far, reason, 0⟩] } }
  else { s with port := s.port.posted [⟨.dropUndelivered, 0xFF, hiByte circuit, loByte circuit⟩] }

/-- A check asked for while the highway is PRESENT: absorbed by one that stands, or queued with idle checkers
taking heads (R125, R126). -/
def State.checkAsked (s : State) (i : Index) : State :=
  if s.switch.checking i then s
  else { s with switch := SlotSwitch.fill false { s.switch with checkQueue := s.switch.checkQueue ++ [i] } }

/-- The state an offer point finds: IDLE with the gap count at 11, and SHELF LINE NORMAL (R55, R62). -/
def State.atOfferPoint (s : State) : State :=
  { s with
    line := { s.line with
      receiver := .idle, gap := 11, dominant := 0, stuck := false, receipt := none, closing := none }
    relink := { s.relink with arrival := .none }
    port := s.port.latching { s.live with stuck := false } }

/-- A frame composed into the transmit buffer, its start bit driven: the transmitter is CONTENDING (R65, R70). -/
def State.sending (s : State) (body : FrameBody) (dest : Destination) (owner : Option Index) : State :=
  { s with line := { s.line with
      receiver := .receiving, gap := 0, dominant := 1, drive := .frame
      buffer := some ⟨⟨s.cardSlot, dest, body⟩, owner, .contending⟩ } }

/-- The frame is completed with its receipt field: TAKEN, BUSY or NO RECEIPT (Table 4-6). -/
def SendOutcome.completes : SendOutcome → Bool
  | .taken => true
  | .busy => true
  | .noReceipt => true
  | .lost => false
  | .outputFailed _ => false
  | .aborted => false

/-- The outcomes of a frame that is in this phase: in RECEIPT the transmitter compares nothing, so it loses nothing and no
output of its fails (R66). -/
def SendOutcome.possible (o : SendOutcome) (phase : SendPhase) : Prop :=
  phase = .receipt → o ≠ .lost ∧ ∀ gap, o ≠ .outputFailed gap

/-- The line once a frame of this station has ended (R62, R65, R66): the buffer empty and the line released; the
receiver IDLE after the receipt field, in HUNT after a failed output, and where it was after a loss; a frame that
was completed is to be handed to the observer. The dominant bits in a row are those of the receipt field after BUSY
(R55, R60). The gap count of a failed output is an operand, below the start gap (log entry 8). -/
def State.sendEnded (s : State) (o : SendOutcome) : State :=
  { s with line := { s.line with
      buffer := none, drive := .released
      completed := if SendOutcome.completes o then s.line.buffer.map TxFrame.frame else s.line.completed
      receipt := if SendOutcome.completes o then none else s.line.receipt
      closing := if SendOutcome.completes o then none else s.line.closing
      receiver :=
        match o with
        | .lost => s.line.receiver
        | .outputFailed _ => .hunt
        | .aborted => .hunt
        | _ => .idle
      gap :=
        match o with
        | .lost => s.line.gap
        | .outputFailed gap => min gap 10
        | .aborted => s.line.gap
        | _ => 0
      dominant :=
        match o with
        | .lost => s.line.dominant
        | .aborted => s.line.dominant
        | .busy => 2
        | _ => 0 } }

/-- The entries facing a card slot, in index order. -/
def State.facing (s : State) (source : CardSlot) : List Index :=
  (List.finRange 64).filter fun i => (s.entry i).farSlot == source

/-- The campaign once a ROLL has been taken from a peer (R75, R77). -/
def State.rolled (s : State) : State :=
  match s.relink.campaign with
  | .steady =>
    { s with
      relink := { s.relink with
        joined := 0, failed := 0, late := 0, front := none, campaign := .gather,
        gatherTimer := some (s.now + s.settings.g), settleTimer := .stopped }
      port := s.port.posted [⟨.campaignBegun, 0xFF, 2, 0⟩] }
  | .gather => { s with relink := { s.relink with gatherTimer := some (s.now + s.settings.g) } }
  | .contend => s

/-- The written fields, the key and the fingerprint, and with them which circuit an entry is (R2). -/
def Entry.sameHalf (e f : Entry) : Prop :=
  e.circuit = f.circuit ∧ e.role = f.role ∧ e.farSlot = f.farSlot ∧ e.channel = f.channel ∧ e.txSlot = f.txSlot
    ∧ e.rxSlot = f.rxSlot ∧ e.cls = f.cls ∧ e.ordinal = f.ordinal ∧ e.key = f.key ∧ e.fingerprint = f.fingerprint

/-- Every command but POWER_ON and a WAKE_END that is a cold start (R41). -/
def keepsMemory (c : Instr) (s : State) : Prop :=
  c ≠ .powerOn ∧ ∀ aux straps, c = .wakeEnd aux straps → s.supply.power = .wake → s.supply.retention = true

/-! ### What an offer point and an arrival turn on -/

/-- The entry is the BID candidate: the campaign is CONTEND, no bid is open and no entry is BIDDING, and it is the
most urgent PENDING ORIGIN entry, the lower index among equal keys (R31, R88, R90). -/
def State.bidsFirst (s : State) (i : Index) : Prop :=
  s.relink.campaign = .contend ∧ s.relink.openBid = none ∧ (∀ j : Index, (s.entry j).state ≠ .bidding)
    ∧ (s.entry i).state = .pending ∧ (s.entry i).role = .origin
    ∧ ∀ j : Index, (s.entry j).state = .pending → (s.entry j).role = .origin → j ≠ i →
        (s.entry i).key.toNat < (s.entry j).key.toNat ∨ ((s.entry i).key = (s.entry j).key ∧ i < j)

/-- The entry is JOINING, LIVE or PARKED and has a unit in the queue (R138). -/
def State.mayCarry (s : State) (i : Index) : Prop :=
  ((s.entry i).state = .joining ∨ (s.entry i).state = .live ∨ (s.entry i).state = .parked)
    ∧ ∃ u ∈ s.units, u.entry = i

/-- The entry is the CARRY candidate: the most urgent that may carry (R31, R139). -/
def State.carriesFirst (s : State) (i : Index) : Prop :=
  s.mayCarry i ∧ ∀ j : Index, s.mayCarry j → j ≠ i →
    (s.entry i).key.toNat < (s.entry j).key.toNat ∨ ((s.entry i).key = (s.entry j).key ∧ i < j)

/-- The acting block's own rule governs the DEFERRED entry (R96): a DROP for it, a ROLL COLD, or an ANSWER for its
circuit and attempt, handed to the acting block. -/
def State.actorTakes (s : State) (f : Frame) (i : Index) : Prop :=
  s.acts f.source = true
    ∧ ((∃ d, f.dest = .card s.cardSlot ∧ f.body = .drop d ∧ (s.entry i).circuit = d.circuit)
      ∨ (∃ figure, f.dest = .every ∧ f.body = .roll ⟨.cold, figure⟩)
      ∨ (∃ a, f.dest = .card s.cardSlot ∧ f.body = .answer a ∧ (s.entry i).circuit = a.circuit
          ∧ (s.entry i).attempt = a.attempt))

/-- The front raised to the key of a MATCH or MATCH-PARKED in GATHER and CONTEND (R89). -/
def State.frontAfter (s : State) (a : Answer) : Option Key :=
  if s.relink.campaign ≠ .steady ∧ (a.verdict = .match_ ∨ a.verdict = .matchParked) then
    some (s.relink.front.elim a.key fun k => if k.toNat < a.key.toNat then a.key else k)
  else s.relink.front

/-- The open-bid record, the settle timer and the front once the observer has a frame (R81, R87, R89). -/
def State.observed (s : State) (f : Frame) : RelinkEngine :=
  match f.body, f.dest with
  | .bid b, .card far =>
    { s.relink with
      openBid := some ⟨b.circuit, f.source, far, s.now⟩
      settleTimer := if s.relink.campaign = .contend then .runsOutAt (s.now + s.settings.q) else s.relink.settleTimer }
  | .answer a, _ =>
    { s.relink with
      openBid :=
        if s.relink.openBid.any (fun b => b.circuit == a.circuit && b.far == f.source) then none
        else s.relink.openBid
      front := s.frontAfter a }
  | _, _ => s.relink

/-- The roster record of a card slot once a frame from it has been observed (R28, R86). -/
def RosterRecord.after (r : RosterRecord) (body : FrameBody) : RosterRecord :=
  { heard := true
    roll :=
      match body with
      | .roll x => some (x.kind, min x.figure.toNat 1048575)
      | _ => r.roll }

/-- The origin has agreed (R107, R108, R109): JOINING or PARKED with its late flag, JOINED, and the counts (R82). -/
def State.joinedAs (s : State) (i : Index) (st : EntryState) (late : Bool) : State :=
  { s with
    table := s.table.set i { s.entry i with state := st, late := late, deadline := none }
    relink := { s.relink with
      answerTimer := s.timerWithout i
      joined := if s.relink.campaign = .steady then s.relink.joined else min (s.relink.joined + 1) 255
      late :=
        if s.relink.campaign ≠ .steady ∧ late = true then min (s.relink.late + 1) 255 else s.relink.late }
    port := s.port.posted [⟨.joined, BitVec.ofNat 8 i.val, if late then 1 else 0, 0⟩] }

/-- The entry, of either role, that a frame's circuit and source name (R5). -/
def State.faces (s : State) (circuit : Circuit) (source : CardSlot) (i : Index) : Prop :=
  (s.entry i).state ≠ .empty ∧ (s.entry i).circuit = circuit ∧ (s.entry i).farSlot = source

/-- One of them and no other. -/
def State.facesAlone (s : State) (circuit : Circuit) (source : CardSlot) (i : Index) : Prop :=
  s.faces circuit source i ∧ ∀ j, s.faces circuit source j → j = i

/-! ### Highway slots -/

/-- The outbound sample of a line channel as a highway slot begins, where the frame has gone on from slot `k`: the one
filled in before it, or else the one that stood (R119). -/
def State.sampleAt (s : State) (f : HighwayFrame) (k : Nat) (n : Byte) (c : BitVec 6) : Byte :=
  let x := f.fills[c.toFin]
  if k ≤ x.slot.toNat ∧ x.slot.toNat ≤ n.toNat then x.sample else s.switch.outbound[c.toFin]

/-- The byte HDI carries in a highway slot: what another station drives, else the sample of the LIVE entry whose tx
slot it is, else $FF (R123). -/
def State.heardAt (s : State) (f : HighwayFrame) (k : Nat) (n : Byte) : Byte :=
  match f.others[n.toFin], (List.finRange 64).find? fun i => (s.entry i).state == .live && (s.entry i).txSlot == n with
  | some b, _ => b
  | none, some i => s.sampleAt f k n (s.entry i).channel
  | none, none => 0xFF

/-- `w` is the Slot Switch once highway slots `k` to `m - 1` of a frame have passed and before any check has ended (R119,
R123, R126): each sample filled in before its slot; the byte of each LIVE entry's rx slot copied into its line channel,
and no other channel touched; and a reading of the tx slot for each checker that reads in this frame. -/
structure SlotsPass (s : State) (f : HighwayFrame) (k m : Nat) (w : SlotSwitch) : Prop where
  rest : w = { s.switch with
    timing := some ⟨f, m⟩, outbound := w.outbound, inbound := w.inbound, checkers := w.checkers }
  outbound : ∀ c : BitVec 6, w.outbound[c.toFin] =
    if k ≤ f.fills[c.toFin].slot.toNat ∧ f.fills[c.toFin].slot.toNat < m then f.fills[c.toFin].sample
    else s.switch.outbound[c.toFin]
  copied : ∀ i, (s.entry i).state = .live → k ≤ (s.entry i).rxSlot.toNat → (s.entry i).rxSlot.toNat < m →
    w.inbound[(s.entry i).channel.toFin] = s.heardAt f k (s.entry i).rxSlot
  kept : ∀ c : BitVec 6,
    (∀ i, (s.entry i).state = .live → (s.entry i).channel = c →
      ¬ (k ≤ (s.entry i).rxSlot.toNat ∧ (s.entry i).rxSlot.toNat < m)) →
    w.inbound[c.toFin] = s.switch.inbound[c.toFin]
  readings : ∀ j : Fin 4, w.checkers[j] = s.switch.checkers[j].map fun x =>
    let n := (s.entry x.index).txSlot
    if k ≤ n.toNat ∧ n.toNat < m ∧ x.armed = true then { x with samples := x.samples + 1 } else x

/-- In highway slots `k` to `m - 1` the checker takes a reading that ends its check: one other than $FF, or the fourth
$FF in a row (R126). -/
def State.decides (s : State) (f : HighwayFrame) (k m : Nat) (x : Checker) : Prop :=
  let n := (s.entry x.index).txSlot
  k ≤ n.toNat ∧ n.toNat < m ∧ x.armed = true ∧ (s.heardAt f k n ≠ 0xFF ∨ 3 ≤ x.samples)

/-- `t` is `s` once the check of checker `k` has ended with a result (R101, R111, R112, R126, R127): the checker idle, the
result applied to an entry in CHECKING, JOINING or PARKED, and heads taken. -/
def CheckEnds (s : State) (k : Fin 4) (i : Index) (r : CheckResult) (t : State) : Prop :=
  let e := s.entry i
  let b := { s with switch := { s.switch with checkers := s.switch.checkers.set k none } }
  let refilled := fun (u : State) => { u with switch := SlotSwitch.fill false u.switch }
  let answer := fun verdict => (⟨e.circuit, e.farSlot, e.attempt, verdict, e.key⟩ : AnswerItem)
  (r = .pass → e.state = .checking → Settles (refilled ((b.connectedAs i).queued (answer .match_))) t)
  ∧ (r = .pass → e.state = .joining ∨ e.state = .parked → Settles (refilled (b.connectedAs i)) t)
  ∧ (r = .fail → e.state = .checking →
      Settles (refilled ((b.failedAs i .clash none).queued (answer .refuseClash))) t)
  ∧ (r = .fail → e.state = .joining ∨ e.state = .parked →
      Settles (refilled ((b.failedAs i .clash none).dropped e.circuit e.farSlot .clash)) t)

/-- `t` is `s` once highway slot `k` of the frame in progress has passed, and the check that a reading in it ends, if
one does, has ended (R119, R123, R126). -/
def SlotPasses (s : State) (f : HighwayFrame) (k : Nat) (t : State) : Prop :=
  ∃ w, SlotsPass s f k (k + 1) w
    ∧ ((∀ (j : Fin 4) x, s.switch.checkers[j] = some x → ¬ s.decides f k (k + 1) x) → t = { s with switch := w })
    ∧ ∀ (j : Fin 4) x, s.switch.checkers[j] = some x → s.decides f k (k + 1) x →
        CheckEnds { s with switch := w } j x.index
          (if s.heardAt f k (s.entry x.index).txSlot = 0xFF then .pass else .fail) t

/-- `t` is `s` once so many highway slots of the frame in progress have passed, one after another. -/
def SlotsRun : Nat → State → State → Prop
  | 0, s, t => t = s
  | n + 1, s, t => ∃ x u, s.switch.timing = some x ∧ SlotPasses s x.frame x.slot u ∧ SlotsRun n u t

/-! ### Port commands -/

/-- The part takes a command whose parameter buffer holds these bytes (R166, R167). -/
def State.given (s : State) (ps : List Byte) : Prop :=
  s.running = true ∧ s.port.crstLow = false ∧ s.port.params = ps ∧ s.port.overlength = false

/-- The part as a command leaves it with these result bytes and no other effect (R167). -/
def State.answering (s : State) (bytes : List Byte) : State := { s with port := s.port.answered bytes }

/-! ### The rules of every moment -/

/-- Every count, figure, list and position is within the range the spec gives it. -/
structure InRange (s : State) : Prop where
  calibration : Config.calibrationMin ≤ s.supply.a ∧ s.supply.a ≤ Config.calibrationMax
  outage : s.supply.t ≤ Config.outageMax
  episode : s.supply.e ≤ Config.figureCap
  accumulated : s.supply.m ≤ Config.figureCap
  warmup : s.supply.warmup ≤ Config.warmupCycles
  counts : s.relink.joined ≤ 255 ∧ s.relink.failed ≤ 255 ∧ s.relink.late ≤ 255
  answers : s.relink.answers.length ≤ Config.listPlaces
  drops : s.relink.drops.length ≤ Config.listPlaces
  dropSends : ∀ d ∈ s.relink.drops, d.sends < Config.dropSends
  gap : s.line.gap ≤ Config.startGap
  dominant : s.line.dominant ≤ Config.stuckBits + 1
  runCount : s.switch.runCount ≤ Config.syncRun
  missing : s.switch.missing < Config.missingLimit
  slots : ∀ x, s.switch.timing = some x → x.slot ≤ Config.frameSlots
  samples : ∀ k c, s.switch.checkers[(k : Fin 4)] = some c → c.samples < Config.quietReadings
  strikes : ∀ i, (s.entry i).noReceipt < Config.noReceiptLimit ∧ (s.entry i).busy < Config.busyLimit
  units : s.units.length ≤ Config.unitPlaces
  delivery : s.delivery.queue.length ≤ Config.deliveryPlaces
  deliveryPosition : s.delivery.position < (deliveryBytes s.delivery.buffer).length
  notices : s.port.notices.length ≤ Config.noticePlaces
  noticePosition : s.port.noticePos < (noticeBytes s.port.noticeBuffer).length
  params : s.port.params.length ≤ Config.paramPlaces
  resultPosition : s.port.resultPos ≤ s.port.results.length
  gather : 20 ≤ s.settings.g ∧ s.settings.g ≤ 2000
  wait : 2 ≤ s.settings.w ∧ s.settings.w ≤ 50
  absent : 100 ≤ s.settings.p ∧ s.settings.p ≤ 60000
  settle : 10 ≤ s.settings.q ∧ s.settings.q ≤ 1000
  pack : 1 ≤ s.settings.k ∧ s.settings.k ≤ 4
  limits : ∀ c, s.settings.limit c ≤ Config.figureCap

/-- The Circuit Table is sound: R1 (EMPTY holds zero), Table 1-1 (circuit 0 is invalid), R3 and R4 (key and
fingerprint are those of the written fields), R5 (uniqueness), R6 (the failure record). -/
structure TableSound (s : State) : Prop where
  empty : ∀ i, (s.entry i).state = .empty → s.entry i = Entry.cleared
  circuit : ∀ i, (s.entry i).state ≠ .empty → (s.entry i).circuit ≠ 0
  key : ∀ i, (s.entry i).key = keyOf (s.entry i).cls (s.entry i).ordinal
  fingerprint : ∀ i, (s.entry i).state ≠ .empty → (s.entry i).fingerprint = fingerprintOf s.cardSlot (s.entry i)
  unique : ∀ i j, (s.entry i).state ≠ .empty → (s.entry j).state ≠ .empty → i ≠ j →
    (s.entry i).circuit ≠ (s.entry j).circuit ∧ (s.entry i).txSlot ≠ (s.entry j).txSlot
      ∧ (s.entry i).channel ≠ (s.entry j).channel
  failure : ∀ i, (s.entry i).failure.isSome = true ↔ (s.entry i).state = .failed

/-- In CONFIG mode the campaign is STEADY, nothing is held (R19, R27, R73, R149, R158), and the part drives neither frames
nor receipts onto the line (R68). -/
structure ConfigSound (s : State) : Prop where
  steady : s.active = false → s.relink.campaign = .steady
  table : s.active = false → ∀ i, s.entry i = Entry.cleared
  roll : s.active = false → s.relink.pendingRoll = none
  lists : s.active = false → s.relink.answers = [] ∧ s.relink.drops = []
  units : s.active = false → s.units = []
  delivery : s.active = false → s.delivery.queue = [] ∧ s.delivery.buffer = none
  silent : s.active = false → s.line.buffer = none ∧ s.line.drive = .released ∧ s.line.receipt = none

/-- The campaign is sound: the timers run in their states (R73, R77, R81), STEADY holds no M, no front and no
relinking entry (R27, R81, R89), and a campaign that may end has ended (R81). -/
structure CampaignSound (s : State) : Prop where
  gatherTimer : s.relink.gatherTimer.isSome = true ↔ s.relink.campaign = .gather
  settleTimer : s.relink.settleTimer = .stopped ↔ s.relink.campaign ≠ .contend
  figure : s.relink.campaign = .steady → s.supply.m = 0
  front : s.relink.campaign = .steady → s.relink.front = none
  relinked : s.relink.campaign = .steady → ∀ i, (s.entry i).state.relinking = false
  ended : ¬ s.settled

/-- A deadline stands where Table 1-1 and R80 have one: in DEFERRED, and in PENDING for the FAR role while the
campaign is CONTEND. -/
def DeadlinesSound (s : State) : Prop :=
  ∀ i, (s.entry i).deadline.isSome = true ↔
    (s.entry i).state = .deferred
      ∨ ((s.entry i).state = .pending ∧ (s.entry i).role = .far ∧ s.relink.campaign = .contend)

/-- The BID in the transmit buffer. -/
def State.bidOnLine (s : State) : Prop := ∃ f b, s.line.buffer = some f ∧ f.frame.body = .bid b

/-- One bid at a time: at most one entry is BIDDING, the answer timer runs exactly then (R90, R95), none is
BIDDING while a BID is on the line (R91), and the states of one role stand with that role (Table 1-2, R100). -/
structure BiddingSound (s : State) : Prop where
  one : ∀ i j, (s.entry i).state = .bidding → (s.entry j).state = .bidding → i = j
  timer : s.relink.answerTimer.isSome = true ↔ ∃ i, (s.entry i).state = .bidding
  line : s.bidOnLine → ∀ i, (s.entry i).state ≠ .bidding
  origin : ∀ i, (s.entry i).state = .bidding ∨ (s.entry i).state = .deferred ∨ (s.entry i).state = .joining →
    (s.entry i).role = .origin
  far : ∀ i, (s.entry i).state = .checking → (s.entry i).role = .far

/-- A latch that is not pending shows the live values (R178, R180), and SHELF LINE is STUCK while the dominant count is
past 2000 (R55). -/
structure LatchSound (s : State) : Prop where
  shown : s.port.latchPending = false → s.port.latch = s.live
  stuck : Config.stuckBits < s.line.dominant → s.line.stuck = true

/-- PARKED, CHECKING or JOINING: the states an entry waits for a check in (R125). -/
def EntryState.awaitsCheck (st : EntryState) : Prop := st = .parked ∨ st = .checking ∨ st = .joining

/-- The Slot Switch is sound: a frame is timed exactly while PRESENT (R117, R118), no check while LOST (R120, R130),
no index checked twice (R125), checks only for entries that wait for one (R128), no checker idle while an index
waits (R126), in RUN a check for every entry that waits for one and LIVE entries only while PRESENT (R101, R120,
R121), and the inbound sample of a channel no LIVE entry serves reads $FF (R123). -/
structure SwitchSound (s : State) : Prop where
  timed : s.switch.timing.isSome = true ↔ s.switch.highway = .present
  lost : s.switch.highway = .lost → s.switch.checkQueue = [] ∧ ∀ k : Fin 4, s.switch.checkers[k] = none
  once : s.switch.checkQueue.Nodup
  apart : ∀ i ∈ s.switch.checkQueue, s.switch.onChecker i = false
  distinct : ∀ (j k : Fin 4) c d, s.switch.checkers[j] = some c → s.switch.checkers[k] = some d →
    c.index = d.index → j = k
  waiting : ∀ i, s.switch.checking i = true → (s.entry i).state.awaitsCheck
  working : s.switch.checkQueue ≠ [] → ∀ k : Fin 4, s.switch.checkers[k] ≠ none
  checked : s.running = true → ∀ i, (s.entry i).state.awaitsCheck →
    s.switch.checking i = true ∨ ((s.entry i).state = .parked ∧ s.switch.highway = .lost)
  driven : s.running = true → ∀ i, (s.entry i).state = .live → s.switch.highway = .present
  idle : ∀ c : Fin 64, (∀ i, (s.entry i).state = .live → (s.entry i).channel.toFin ≠ c) →
    s.switch.inbound[c] = Config.idleSample

/-- The units of an entry, in queue order. -/
def State.unitsOf (s : State) (i : Index) : List QueuedUnit := s.units.filter fun u => u.entry == i

/-- The signalling order: units belong to entries neither EMPTY nor FAILED (R133), the sequences of an entry's
units run on without a gap up to its tx sequence (R134), the marked ones are its oldest, and marks stand only
while a CARRY is in the transmit buffer (R141), which is empty from the HOLD entry to the WAKE end (R71). -/
structure UnitsSound (s : State) : Prop where
  owner : ∀ u ∈ s.units, (s.entry u.entry).state.standing = true
  places : s.units.length ≤ Config.unitPlaces
  sequence : ∀ i n (u : QueuedUnit), (s.unitsOf i)[n]? = some u →
    u.sequence + BitVec.ofNat 8 ((s.unitsOf i).length - n) = (s.entry i).txSeq
  oldest : ∀ i (m n : Nat) (u v : QueuedUnit), m < n → (s.unitsOf i)[m]? = some u → (s.unitsOf i)[n]? = some v →
    v.inFlight = true → u.inFlight = true
  onLine : (∃ u ∈ s.units, u.inFlight = true) → ∃ f c, s.line.buffer = some f ∧ f.frame.body = .carry c
  parked : s.running = false → s.line.buffer = none

/-- The part composes well-formed frames of its own card slot alone (R56, R57): the frame in the transmit buffer, the
one last completed, and all they are composed from. It drives the frame in the buffer until its receipt field (R60, R65),
an abort in RUN never (R54), and nothing while SILENCED (R68); the buffer is empty outside RUN (R71). -/
structure FramesSound (s : State) : Prop where
  buffer : ∀ f, s.line.buffer = some f → f.frame.wf = true ∧ f.frame.source = s.cardSlot
  completed : ∀ f, s.line.completed = some f → f.wf = true ∧ f.source = s.cardSlot
  circuits : ∀ i, (s.entry i).state ≠ .empty → (s.entry i).circuit ≠ 0
  attempts : ∀ i, (s.entry i).attempt ≤ Config.missLimit ∧ (s.entry i).misses ≤ Config.missLimit
  bids : ∀ i, (s.entry i).state = .pending → (s.entry i).role = .origin → (s.entry i).misses < Config.missLimit
  bidding : ∀ i, (s.entry i).state = .bidding → (s.entry i).role = .origin
  checks : ∀ i, (s.entry i).state = .checking → 1 ≤ (s.entry i).attempt
  answers : ∀ a ∈ s.relink.answers, a.circuit ≠ 0 ∧ 1 ≤ a.attempt ∧ a.attempt ≤ Config.missLimit
  drops : ∀ d ∈ s.relink.drops, d.circuit ≠ 0
  units : ∀ u ∈ s.units, 1 ≤ u.content.length ∧ u.content.length ≤ 8
  pack : 1 ≤ s.settings.k ∧ s.settings.k ≤ 4
  driven : s.line.drive = .frame ↔ ∃ f, s.line.buffer = some f ∧ f.phase ≠ .receipt
  aborted : s.running = true → s.line.drive ≠ .abort
  parked : s.running = false → s.line.buffer = none
  silent : s.line.silenced = true → s.line.drive = .released ∧ s.line.receipt = none

/-- All rules of every moment together. -/
structure Sound (s : State) : Prop where
  range : InRange s
  table : TableSound s
  config : ConfigSound s
  campaign : CampaignSound s
  deadlines : DeadlinesSound s
  bidding : BiddingSound s
  latch : LatchSound s
  switch : SwitchSound s
  units : UnitsSound s
  frames : FramesSound s

end Sys2Proof.Machine
end

