-- ==== Sys2Proof/Certificates/Slice0/Obligations.lean ====
section
/-! DEFINITION. The statements for the provers: what each command and the machine as a whole does, from the
numbered rules of spec/. A clause that rests on a choice of the model names the log entry. -/

open Sys2Proof Sys2Proof.Machine

/-! ### The queue and the clock -/

/-- Log entry 1: a step takes the command at the front of the queue and leaves the rest waiting. -/
def Obligations.StepTakesFrontCommand : Prop :=
  ∀ (c : Instr) (rest : List Instr) (s : State),
    step { s with pending := c :: rest } = exec c { s with pending := rest }

/-- Log entry 6: with nothing waiting, a step is a due event; or else in RUN the end of the receipt field of a frame
heard (R62), the next phase of this station's own (R65), or the next highway slot (R119, R123, R126; log entries 8 and
11); or else one tick: 1 ms in RUN (R20, R80), an aux tick in HOLD and WAKE (R23, R42). Nothing is due while no
completed frame waits for the observer, and every timer and deadline lies ahead. -/
def Obligations.IdleStepTicksOrTakesDueEvent : Prop :=
  (∀ s : State, s.pending = [] → s.running = false →
    step s = .next { s with supply := { s.supply with t := min (s.supply.t + 1) 16777215 } })
  ∧ (∀ s : State, s.pending = [] → s.running = true → s.dueEvent = none →
    (s.line.closing ≠ none → step s = .next
      { s with line := { s.line with
          receiver := .idle, gap := 0, dominant := if s.line.receipt = some .busy then 2 else 0
          receipt := none, closing := none } })
    ∧ (∀ f, s.line.closing = none → s.line.buffer = some f →
      (f.phase = .contending → step s = .next
        { s with line := { s.line with buffer := some { f with phase := .sending } } })
      ∧ (f.phase = .sending → step s = .next
        { s with line := { s.line with buffer := some { f with phase := .receipt }, drive := .released } }))
    ∧ (s.line.closing = none → (∀ f, s.line.buffer = some f → f.phase = .receipt) →
      (∀ x, s.switch.timing = some x → x.slot < 256 → s.switch.highway = .present → TableSound s → SwitchSound s →
        ∃ t, SlotPasses s x.frame x.slot t ∧ step s = .next t)
      ∧ ((∀ x, s.switch.timing = some x → 256 ≤ x.slot) → step s = .next { s with
          now := s.now + 1
          supply := { s.supply with window := s.supply.window.map fun k => min (k + 1) 64 } })))
  ∧ (∀ (s : State) (c : Instr), s.pending = [] → s.dueEvent = some c → step s = exec c s)
  ∧ (∀ s : State, s.running = true → (s.dueEvent = none ↔
      s.line.completed = none
      ∧ (∀ b, s.relink.openBid = some b → s.now < b.tick + s.settings.w)
      ∧ (∀ t, s.relink.answerTimer = some t → (∃ i, (s.entry i).state = .bidding) → s.now < t)
      ∧ (∀ i t, (s.entry i).deadline = some t →
          (s.entry i).state = .deferred ∨ ((s.entry i).state = .pending ∧ (s.entry i).role = .far) → s.now < t)
      ∧ (∀ t, s.relink.campaign = .gather → s.relink.gatherTimer = some t → s.now < t)
      ∧ (∀ t, s.relink.settleTimer = .runsOutAt t → s.now < t)))

/-- Every command completes in every state, and leaves the queue alone: no rule stops the part (log entry 4). -/
def Obligations.EveryCommandCompletes : Prop :=
  ∀ (c : Instr) (s : State), ∃ t, exec c s = .next t ∧ t.pending = s.pending

/-! ### Power -/

/-- R35, R38, R41, R47 and R48, with log entries 2 and 14: power applied to an empty part is HOLD with the flag
clear and T at 0, the first rise of VDD is WAKE, and the WAKE end is a cold start whose card slot is the
straps. -/
def Obligations.PowerOnLeadsToColdStart : Prop :=
  ∀ (s : State) (aux aux' : Nat) (straps : CardSlot), ∃ h w,
    exec .powerOn s = .next h
    ∧ h = { State.reset with
        supply := { State.reset.supply with power := .hold, mainOsc := false, window := none, retention := false }
        port := { State.reset.port with crstLow := s.port.crstLow, dataOut := s.port.dataOut }
        freeCount := s.freeCount
        pending := s.pending }
    ∧ exec (.supplyUpInHold aux) h = .next w ∧ w.supply.power = .wake
    ∧ exec (.wakeEnd aux' straps) w = .next { State.reset with
        cardSlot := straps
        port := { State.reset.port with crstLow := s.port.crstLow, dataOut := s.port.dataOut }
        freeCount := s.freeCount
        pending := s.pending }

/-- R22, R36, R44, R71, R130, R149 and R178: the HOLD entry sets T to 0, abandons the window, clears the flag
where VRET is low, and parks every block; a frame in SENDING is aborted (R54). The frame on the line has gone at
least as far as the operand says (log entry 8). That the tick, the warm-up count, the gap count and the dominant count
stay as they stood is the model's choice (log entry 30). -/
def Obligations.HoldEntryParksEveryBlock : Prop :=
  ∀ (s : State) (phase : SendPhase) (vretLow : Bool), s.running = true →
    exec (.holdEntry phase vretLow) s = .next { s with
      supply := { s.supply with
        power := .hold, t := 0, window := none, upSeen := false, retention := s.supply.retention && !vretLow }
      line := { s.line with
        receiver := .hunt, buffer := none, completed := none, receipt := none, closing := none
        drive :=
          if ∃ f, s.line.buffer = some f ∧ f.phase ≠ .receipt ∧ phase ≠ .receipt
              ∧ (f.phase = .sending ∨ phase = .sending) then .abort
          else .released }
      switch := { s.switch with
        highway := .lost, runCount := 0, missing := 0, timing := none
        checkQueue := [], checkers := Vector.replicate 4 none
        inbound := Vector.replicate 64 0xFF#8 }
      units := s.units.map fun u => { u with inFlight := false }
      relink := { s.relink with arrival := .none }
      port := s.port.latching { s.live with lost := true } }

/-- R20, R23, R34, R36, R38, R40 and R44: what moves the power state between HOLD and WAKE, the retention flag, T at
its limit, and a calibration window's result, which replaces A within 1024..4095 and makes CALIBRATION OK, and
otherwise makes it FAULT. The aux ticks that fell before are operands (log entry 7), and the clock stands at the
window's end (log entry 3). -/
def Obligations.SupplyMonitorEvents : Prop :=
  (∀ (s : State) (aux : Nat), s.supply.power = .hold → s.supply.mainOsc = false →
    exec (.supplyUpInHold aux) s = .next { s with supply := { s.supply with
      power := .wake, mainOsc := true, warmup := 0, upSeen := false, t := min (s.supply.t + aux) 16777215 } })
  ∧ (∀ (s : State) (aux : Nat), s.supply.power = .hold → s.supply.mainOsc = true →
    exec (.supplyUpInHold aux) s = .next { s with supply := { s.supply with
      upSeen := true, t := min (s.supply.t + aux) 16777215 } })
  ∧ (∀ s : State, s.supply.power = .hold → s.supply.mainOsc = true → s.supply.upSeen = false →
    exec .mainOscillatorStop s = .next { s with
      line := { s.line with drive := .released }, supply := { s.supply with mainOsc := false } })
  ∧ (∀ s : State, s.supply.power = .hold → s.supply.mainOsc = true → s.supply.upSeen = true →
    exec .mainOscillatorStop s = .next { s with
      line := { s.line with drive := .released }
      supply := { s.supply with power := .wake, warmup := 0, upSeen := false } })
  ∧ (∀ (s : State) (aux : Nat) (vretLow : Bool), s.supply.power = .wake →
    exec (.supplyDownInWake aux vretLow) s = .next { s with supply := { s.supply with
      power := .hold, mainOsc := false, upSeen := false, warmup := 0, t := min (s.supply.t + aux) 16777215
      retention := s.supply.retention && !vretLow } })
  ∧ (∀ s : State, s.supply.power = .hold →
    exec .retentionLoss s = .next { s with supply := { s.supply with retention := false } })
  ∧ (∀ s : State, s.supply.power ≠ .run →
    exec .outageCounterSaturated s = .next { s with supply := { s.supply with t := 16777215 } })
  ∧ (∀ (s : State) (count : Nat), s.running = true →
     exec (.calibrationWindowEnd count) s = .next { s with
       now := s.now + (64 - s.supply.window.getD 0)
       supply := { s.supply with
         a := if 1024 ≤ count ∧ count ≤ 4095 then count else s.supply.a
         calFault := decide (¬ (1024 ≤ count ∧ count ≤ 4095))
         window := some 0 }
       port := s.port.latching { s.live with calFault := decide (¬ (1024 ≤ count ∧ count ≤ 4095)) } })

/-- R18, R24, R26, R45, R72, R76, R83 and R131: a warm wake in ACTIVE mode reckons E into M, returns every entry
neither EMPTY nor FAILED to PENDING, and begins a campaign in GATHER with a ROLL WARM pending, unless a ROLL
COLD still is. The outbound samples are free values (log entry 12), and that the ms tick runs on from where it stood and
the warm-up count stays at 4096 is the model's choice (log entry 30). -/
def Obligations.WarmWakeBeginsCampaign : Prop :=
  ∀ (s : State) (aux : Nat) (straps : CardSlot), s.supply.power = .wake → s.supply.retention = true →
    s.active = true → s.port.crstEdge = false →
    let ticks := min (s.supply.t + aux) 16777215
    let e := episodeFigure ticks s.supply.a
    ∃ t, exec (.wakeEnd aux straps) s = .next t
      ∧ (∀ i, t.entry i =
          if (s.entry i).state = .empty ∨ (s.entry i).state = .failed then s.entry i
          else { s.entry i with
            state := .pending, late := false, noReceipt := 0, busy := 0, misses := 0, attempt := 0,
            deadline := none })
      ∧ t = { s with
          table := t.table
          supply := { s.supply with
            power := .run, warmup := 4096, window := some 0, t := ticks, e := e
            m := min (s.supply.m + e) 1048575 }
          relink := { s.relink with
            campaign := .gather, joined := 0, failed := 0, late := 0, front := none
            gatherTimer := some (s.now + s.settings.g), settleTimer := .stopped, answerTimer := none
            roster := Vector.replicate 32 ⟨false, none⟩, openBid := none, answers := [], arrival := .none
            pendingRoll := if s.relink.pendingRoll = some .cold then some .cold else some .warm }
          line := { s.line with
            receiver := .hunt, gap := 0, dominant := 0, stuck := false, buffer := none, completed := none
            drive := .released, receipt := none, closing := none }
          switch := { s.switch with
            highway := .lost, runCount := 0, missing := 0, timing := none
            checkQueue := [], checkers := Vector.replicate 4 none
            inbound := Vector.replicate 64 0xFF#8
            outbound := Vector.ofFn fun c => Config.outboundAfterWake s.freeCount c.val }
          port := (s.port.posted [⟨.campaignBegun, 0xFF, 1, 0⟩]).latching
            { s.live with stuck := false, lost := true }
          freeCount := s.freeCount + 1 }

/-- R25, R46, R72, R76 and R131 for a warm wake in CONFIG mode, whose outbound samples are free values (log entry 12);
R47 and R48 for a cold start, which keeps only what belongs to the outside and to the model: the CRST level, the data
pins, the queue (log entries 2, 16). That the ms tick runs on through a warm wake, and starts at 0 at a cold start, and
that the warm-up count is 4096 after the one and 0 after the other, is the model's choice (log entries 2, 30). A warm
wake with a recorded edge on CRST is in `CardResetReachesPortAlone`. -/
def Obligations.ConfigWakeAndColdStart : Prop :=
  (∀ (s : State) (aux : Nat) (straps : CardSlot), s.supply.power = .wake → s.supply.retention = true →
    s.active = false → s.port.crstEdge = false →
    exec (.wakeEnd aux straps) s = .next { s with
      supply := { s.supply with
        power := .run, warmup := 4096, window := some 0, t := min (s.supply.t + aux) 16777215
        e := episodeFigure (min (s.supply.t + aux) 16777215) s.supply.a }
      relink := { s.relink with
        roster := Vector.replicate 32 ⟨false, none⟩, openBid := none, arrival := .none }
      line := { s.line with
        receiver := .hunt, gap := 0, dominant := 0, stuck := false, buffer := none, completed := none
        drive := .released, receipt := none, closing := none }
      switch := { s.switch with
        highway := .lost, runCount := 0, missing := 0, timing := none
        checkQueue := [], checkers := Vector.replicate 4 none
        inbound := Vector.replicate 64 0xFF#8
        outbound := Vector.ofFn fun c => Config.outboundAfterWake s.freeCount c.val }
      port := s.port.latching { s.live with stuck := false, lost := true }
      freeCount := s.freeCount + 1 })
  ∧ (∀ (s : State) (aux : Nat) (straps : CardSlot), s.supply.power = .wake → s.supply.retention = false →
    exec (.wakeEnd aux straps) s = .next { State.reset with
      cardSlot := straps
      port := { State.reset.port with crstLow := s.port.crstLow, dataOut := s.port.dataOut }
      freeCount := s.freeCount
      pending := s.pending })

/-- R44, R48, R68 and R172 as rules of the whole part: no command but POWER_ON and a cold start changes the card
slot, ends SILENCED, leaves ACTIVE mode, changes a frozen configuration, or sets the retention flag again. -/
def Obligations.OnlyColdStartUndoes : Prop :=
  ∀ (c : Instr) (s t : State), keepsMemory c s → exec c s = .next t →
    t.cardSlot = s.cardSlot
    ∧ (s.line.silenced = true → t.line.silenced = true)
    ∧ (s.active = true → t.active = true ∧ t.settings = s.settings)
    ∧ (s.supply.retention = false → t.supply.retention = false)

/-- R1, R2 and R6 as rules of the whole part: an entry leaves EMPTY by WRITE ENTRY alone and returns to it by CLEAR
ENTRY alone; what was written, the key and the fingerprint hold meanwhile; a FAILED entry does not change. -/
def Obligations.EntriesKeepTheirHalf : Prop :=
  ∀ (c : Instr) (s t : State) (i : Index), keepsMemory c s → exec c s = .next t →
    ((s.entry i).state = .empty → t.entry i = s.entry i ∨ c = .writeEntry)
    ∧ ((s.entry i).state ≠ .empty →
        (c = .clearEntry ∧ t.entry i = Entry.cleared)
        ∨ ((t.entry i).state ≠ .empty ∧ (t.entry i).sameHalf (s.entry i)
            ∧ ((s.entry i).state = .failed → t.entry i = s.entry i)))

/-! ### The line's format -/

/-- R56 and R57 with Tables 4-1 to 4-3: the bytes before a good CRC are those of a well-formed frame exactly when the
receiver reads that frame from them, so encoding and reading agree with every field at every value; the bytes of each
kind of frame, byte by byte; and which frames are well formed. -/
def Obligations.FrameReadsBack : Prop :=
  (∀ (bs : List Byte) (f : Frame), readFrame bs = some f ↔ f.wf = true ∧ bs = frameBytes f)
  ∧ (∀ source dest : CardSlot,
    let word := fun n : Nat => [BitVec.ofNat 8 (n / 256), BitVec.ofNat 8 n]
    let figure := fun n : Nat => [BitVec.ofNat 8 (n / 65536), BitVec.ofNat 8 (n / 256), BitVec.ofNat 8 n]
    let near : Byte := source.setWidth 8
    let away : Byte := dest.setWidth 8
    (∀ x, frameBytes ⟨source, .every, .roll ⟨.cold, x⟩⟩ = [0x48, 0, 0, near, 0x3F, 4, 1] ++ figure x.toNat)
    ∧ (∀ x, frameBytes ⟨source, .every, .roll ⟨.warm, x⟩⟩ = [0x48, 0, 0, near, 0x3F, 4, 2] ++ figure x.toNat)
    ∧ (∀ b, frameBytes ⟨source, .card dest, .bid b⟩ = [0x98] ++ word b.key.toNat ++ [near, away, 8]
        ++ word b.circuit.toNat ++ [BitVec.ofNat 8 b.attempt] ++ word b.fingerprint.toNat ++ figure b.figure.toNat)
    ∧ (∀ a, frameBytes ⟨source, .card dest, .answer a⟩ = [0x00, 0, 0, near, away, 6] ++ word a.circuit.toNat
        ++ [BitVec.ofNat 8 a.attempt,
          match a.verdict with
          | .match_ => 1 | .matchParked => 2 | .refuseUnknown => 3 | .refuseDiscord => 4 | .refuseExpired => 5
          | .refuseClash => 6 | .refuseFailed => 7]
        ++ word a.key.toNat)
    ∧ (∀ d, frameBytes ⟨source, .card dest, .drop d⟩ = [0x50, 0, 0, near, away, 3] ++ word d.circuit.toNat
        ++ [(match d.reason with | .cleared => 1 | .expired => 2 | .clash => 3 : Byte)])
    ∧ (∀ c, ∃ body, frameBytes ⟨source, .card dest, .carry c⟩
          = [0xE0] ++ word c.key.toNat ++ [near, away, BitVec.ofNat 8 body.length] ++ body
        ∧ body = word c.circuit.toNat ++ [BitVec.ofNat 8 c.units.length]
            ++ c.units.flatMap fun u => [u.sequence, BitVec.ofNat 8 u.content.length] ++ u.content))
  ∧ (∀ source dest,
    (∀ r, Frame.wf ⟨source, dest, .roll r⟩ = true ↔ dest = .every)
    ∧ (∀ b, Frame.wf ⟨source, dest, .bid b⟩ = true ↔
        dest ≠ .every ∧ 1 ≤ b.attempt ∧ b.attempt ≤ 3 ∧ b.circuit ≠ 0)
    ∧ (∀ a, Frame.wf ⟨source, dest, .answer a⟩ = true ↔
        dest ≠ .every ∧ 1 ≤ a.attempt ∧ a.attempt ≤ 3 ∧ a.circuit ≠ 0)
    ∧ (∀ d, Frame.wf ⟨source, dest, .drop d⟩ = true ↔ dest ≠ .every ∧ d.circuit ≠ 0)
    ∧ (∀ c, Frame.wf ⟨source, dest, .carry c⟩ = true ↔
        dest ≠ .every ∧ 1 ≤ c.units.length ∧ c.units.length ≤ 4
        ∧ (∀ u ∈ c.units, 1 ≤ u.content.length ∧ u.content.length ≤ 8) ∧ c.circuit ≠ 0))

/-- R52, R53 and R58: removing stuff bits undoes stuffing; a receiver meets a framing fault exactly where six equal
bits stand in a row, and stuffed bits hold none; R54: an abort is eight dominant bits, and every receiver meets the
fault by its sixth; a frame of B bytes is 1 + 8 × B bits, and stuffing adds at most
1 + the integer part of (1 + 8 × B - 5) / 4. R59 and R60: the CRC starts from $FFFF and takes each bit of a byte, the most
significant first, with generator $1021, and over $31 to $39 is $29B1; it follows the frame's bytes, high byte first; the
sender reads from the receipt field what the addressee drives, and TAKEN beside BUSY reads as BUSY. -/
def Obligations.StuffingCrcAndReceipt : Prop :=
  (∀ bits : List Bool, destuffFrom true 0 (stuffFrom true 0 bits) = some bits)
  ∧ (∀ bits : List Bool, destuffFrom true 0 bits = none ↔
      ∃ (before after : List Bool) (b : Bool), bits = before ++ [b, b, b, b, b, b] ++ after)
  ∧ (∀ (f : Frame) (before after : List Bool) (b : Bool), lineBits f ≠ before ++ [b, b, b, b, b, b] ++ after)
  ∧ abortBits = List.replicate 8 false
  ∧ (∀ bits : List Bool, destuffFrom true 0 (bits ++ abortBits.take 6) = none)
  ∧ (∀ f : Frame, let bytes := (frameBytes f).length + 2
      (plainBits f).length = 1 + 8 * bytes
      ∧ (lineBits f).length ≤ (1 + 8 * bytes) + (1 + (1 + 8 * bytes - 5) / 4))
  ∧ (∀ f : Frame, let bs := frameBytes f
      destuffFrom true 0 (lineBits f) = some (false ::
        (bs ++ [(crc16 bs).extractLsb' 8 8, (crc16 bs).extractLsb' 0 8]).flatMap fun b =>
          [b.getLsbD 7, b.getLsbD 6, b.getLsbD 5, b.getLsbD 4, b.getLsbD 3, b.getLsbD 2, b.getLsbD 1, b.getLsbD 0]))
  ∧ crc16 [] = 0xFFFF
  ∧ (∀ (bs : List Byte) (b : Byte), crc16 (bs ++ [b]) = [7, 6, 5, 4, 3, 2, 1, 0].foldl
      (fun (c : BitVec 16) place => if c.getLsbD 15 = b.getLsbD place then c <<< 1 else (c <<< 1) ^^^ 0x1021)
      (crc16 bs))
  ∧ crc16 [0x31, 0x32, 0x33, 0x34, 0x35, 0x36, 0x37, 0x38, 0x39] = 0x29B1
  ∧ (∀ r : Option Receipt, readReceipt (receiptBits r) = r)
  ∧ readReceipt (true, false) = none
  ∧ readReceipt (joinBits (receiptBits (some .taken)) (receiptBits (some .busy))) = some .busy

/-- R56 and R61: of two well-formed frames begun at one offer point the one with the lower arbitration field wins and
the other loses, stuff bits and all; the field orders frames by kind code, then key, then source card slot; and
between stations of different card slots no two fields are equal. -/
def Obligations.LowestArbitrationFieldWins : Prop :=
  (∀ f g : Frame, f.wf = true → g.wf = true → arbitrationField f < arbitrationField g →
    losesTo (lineBits g) (lineBits f) = true ∧ losesTo (lineBits f) (lineBits g) = false)
  ∧ (∀ f : Frame, arbitrationField f =
      (kindCode f.body).toNat * 16777216 + (headerKey f.body).toNat * 256 + f.source.toNat)
  ∧ ((∀ a, kindCode (.answer a) = 0x00) ∧ (∀ r, kindCode (.roll r) = 0x48) ∧ (∀ d, kindCode (.drop d) = 0x50)
    ∧ (∀ b, kindCode (.bid b) = 0x98 ∧ headerKey (.bid b) = b.key)
    ∧ (∀ c, kindCode (.carry c) = 0xE0 ∧ headerKey (.carry c) = c.key)
    ∧ (∀ a, headerKey (.answer a) = 0) ∧ (∀ r, headerKey (.roll r) = 0) ∧ (∀ d, headerKey (.drop d) = 0))
  ∧ (∀ f g : Frame, f.source ≠ g.source → arbitrationField f ≠ arbitrationField g)

/-! ### Offer points and line faults -/

/-- R51, R55, R65, R68, R69, R70, R83, R91, R104 and R113: what an offer point finds, and the candidates in their
order down to the BID. A frame goes into the transmit buffer from its owner's item as it stands, with M and the
attempt, the transmitter is CONTENDING, and nothing is taken out of a list. The model's own arrival record is
emptied (log entry 5). -/
def Obligations.OfferPointTakesFirstCandidate : Prop :=
  ∀ s : State, s.running = true → s.line.buffer = none →
    (s.active = false ∨ s.line.silenced = true → exec .offerPoint s = .next s.atOfferPoint)
    ∧ (s.active = true → s.line.silenced = false →
      (∀ a rest, s.relink.answers = a :: rest →
        exec .offerPoint s = .next
          (s.atOfferPoint.sending (.answer ⟨a.circuit, a.attempt, a.verdict, a.key⟩) (.card a.origin) none))
      ∧ (s.relink.answers = [] →
        (∀ k, s.relink.pendingRoll = some k →
          exec .offerPoint s = .next
            (s.atOfferPoint.sending (.roll ⟨k, BitVec.ofNat 24 s.supply.m⟩) .every none))
        ∧ (s.relink.pendingRoll = none →
          (∀ d rest, s.relink.drops = d :: rest →
            exec .offerPoint s = .next
              (s.atOfferPoint.sending (.drop ⟨d.circuit, d.reason⟩) (.card d.far) none))
          ∧ (s.relink.drops = [] → ∀ i, s.bidsFirst i →
            exec .offerPoint s = .next (s.atOfferPoint.sending
              (.bid ⟨(s.entry i).key, (s.entry i).circuit, (s.entry i).misses + 1, (s.entry i).fingerprint,
                BitVec.ofNat 24 s.supply.m⟩)
              (.card (s.entry i).farSlot) (some i))))))

/-- R69, R138, R139, R140 and R141: with no answer, ROLL, drop or BID, the most urgent entry that may carry sends its
oldest units, up to K, which are marked in flight and keep their places; with none, nothing is offered. -/
def Obligations.CarryPacksOldestUnits : Prop :=
  ∀ s : State, s.running = true → s.line.buffer = none → s.active = true → s.line.silenced = false →
    s.relink.answers = [] → s.relink.pendingRoll = none → s.relink.drops = [] → (∀ i, ¬ s.bidsFirst i) →
    (∀ i, s.carriesFirst i →
      let packed := (s.unitsOf i).take s.settings.k
      ∃ t, exec .offerPoint s = .next t
        ∧ t = { s.atOfferPoint.sending
              (.carry ⟨(s.entry i).key, (s.entry i).circuit, packed.map fun u => ⟨u.sequence, u.content⟩⟩)
              (.card (s.entry i).farSlot) (some i) with units := t.units }
        ∧ t.unitsOf i = packed.map (fun u => { u with inFlight := true }) ++ (s.unitsOf i).drop s.settings.k
        ∧ (∀ j, j ≠ i → t.unitsOf j = s.unitsOf j)
        ∧ t.units.map QueuedUnit.entry = s.units.map QueuedUnit.entry)
    ∧ ((∀ i, ¬ s.mayCarry i) → exec .offerPoint s = .next s.atOfferPoint)

/-- R51, R53, R55, R57, R59 and R62: each bit time counts, and moves the receiver as Table 4-5 gives; six equal bits in
a row in the stuffed part of a frame send it to HUNT. A dominant run makes SHELF LINE STUCK as it passes 2000 bits, with
the receiver in HUNT, and 11 recessive bits make it NORMAL and the receiver IDLE. SHELF_LINE_STUCK brings the part there
and shows in the latch at once. An early dominant bit, after the receipt field where one runs, is read as any bit
between frames; every other framing fault, a CRC failure and a malformed frame send the receiver to HUNT with no
receipt. The gap counts of the faults are operands, and the dominant run is the least that they leave (log entry 8); a
frame of this card that was on the line has ended LOST (log entry 32). -/
def Obligations.LineFaultsDiscardFrames : Prop :=
  (∀ l : ShelfLine,
    let low := { l with
      gap := 0, dominant := min (l.dominant + 1) 2001, stuck := l.stuck || decide (2000 < l.dominant + 1) }
    let high := { l with gap := min (l.gap + 1) 11, dominant := 0, stuck := l.stuck && decide (l.gap < 10) }
    (l.receiver = .idle → l.gap = 11 → l.readBit false = { low with receiver := .receiving })
    ∧ (l.receiver = .idle → l.gap ≠ 11 → l.readBit false = { low with receiver := .hunt })
    ∧ (l.receiver = .idle → l.readBit true = high)
    ∧ (l.receiver = .hunt → l.readBit false = low)
    ∧ (l.receiver = .hunt → 10 ≤ l.gap → l.readBit true = { high with receiver := .idle })
    ∧ (l.receiver = .hunt → l.gap < 10 → l.readBit true = high)
    ∧ (l.receiver = .receiving → l.inStuffed = true → 5 ≤ l.dominant → l.readBit false = { low with receiver := .hunt })
    ∧ (l.receiver = .receiving → l.inStuffed = true → 5 ≤ l.gap → l.readBit true = { high with receiver := .hunt })
    ∧ (l.receiver = .receiving → l.inStuffed = false ∨ l.dominant < 5 → l.readBit false = low)
    ∧ (l.receiver = .receiving → l.inStuffed = false ∨ l.gap < 5 → l.readBit true = high)
    ∧ (l.inStuffed = true ↔ l.closing = none ∧ ∀ f, l.buffer = some f → f.phase ≠ .receipt))
  ∧ (∀ (l : ShelfLine) (n : Nat), l.dominant ≤ 2000 →
    ((List.replicate n false).foldl ShelfLine.readBit l).stuck = (l.stuck || decide (2000 < l.dominant + n)))
  ∧ (∀ l : ShelfLine, l.inStuffed = true →
    (List.replicate 2001 false).foldl ShelfLine.readBit l
      = { l with receiver := .hunt, gap := 0, dominant := 2001, stuck := true })
  ∧ (∀ l : ShelfLine, l.receiver ≠ .receiving →
    (List.replicate 11 true).foldl ShelfLine.readBit l
      = { l with receiver := .idle, gap := 11, dominant := 0, stuck := false })
  ∧ (∀ s : State, s.running = true →
    exec .shelfLineStuck s = .next { s.yielded with
      line := { s.yielded.line with
        receiver := .hunt, gap := 0, dominant := 2001, stuck := true, receipt := none, closing := none }
      port := s.port.latching { s.live with stuck := true } })
  ∧ (∀ (s : State) (gap : Nat), s.running = true → gap = 0 ∨ gap = 6 →
    exec (.framingFault .sixEqual gap) s = .next (s.hunting gap 6))
  ∧ (∀ (s : State) (n : Byte) (gap : Nat), s.running = true → 43 < n.toNat → gap < 11 →
    exec (.framingFault (.bodyLength n) gap) s = .next (s.hunting gap 1))
  ∧ (∀ s : State, s.running = true →
    let l := if s.line.closing = none then s.line
      else { s.line with
        receiver := .idle, gap := 0, dominant := if s.line.receipt = some .busy then 2 else 0
        receipt := none, closing := none }
    exec (.framingFault .earlyDominant 0) s = .next { s with
      line := l.readBit false, port := s.port.latching { s.live with stuck := (l.readBit false).stuck } })
  ∧ (∀ (s : State) (bytes : List Byte) (crc : BitVec 16) (gap : Nat), s.running = true → gap < 11 → crc ≠ crc16 bytes →
    exec (.crcFailure bytes crc gap) s = .next (s.hunting gap 1))
  ∧ (∀ (s : State) (bytes : List Byte) (gap : Nat), s.running = true → gap < 11 →
    (∀ f : Frame, f.wf = true → frameBytes f ≠ bytes) →
    exec (.malformedFrame bytes gap) s = .next (s.hunting gap 1))

/-! ### The observer -/

/-- R62, R81, R86, R87, R89 and R96: an intact frame from another card slot, whatever its destination, marks its source
HEARD, sets the open-bid record, the settle timer and the front, and returns the DEFERRED entries facing its source to
PENDING with misses 0, but those an acting block's own rule governs. The receiver is RECEIVING, its start bit read at an
offer point, and so with SHELF LINE NORMAL, until the receipt field ends (log entry 28). Nothing else changes but the
model's own arrival record (log entry 5). -/
def Obligations.ObserverTakesFrameHeard : Prop :=
  ∀ (s : State) (f : Frame), s.running = true → f.wf = true → f.source ≠ s.cardSlot →
    CampaignSound s → SwitchSound s → BiddingSound s →
    ∃ t, exec (.frameObserved .heard f) s = .next t
      ∧ t = { s with
          table := t.table
          line := s.line.heard f
          port := s.port.latching { s.live with stuck := false }
          relink := { s.observed f with
            roster := s.relink.roster.set f.source.toFin (s.relink.roster[f.source.toFin].after f.body)
            arrival := t.relink.arrival } }
      ∧ (∀ i, (s.entry i).state = .deferred → (s.entry i).farSlot = f.source → ¬ s.actorTakes f i →
          t.entry i = { s.entry i with
            state := .pending, late := false, noReceipt := 0, busy := 0, misses := 0, deadline := none })
      ∧ (∀ i, ¬ ((s.entry i).state = .deferred ∧ (s.entry i).farSlot = f.source ∧ ¬ s.actorTakes f i) →
          t.entry i = s.entry i)

/-- R63, R65, R67, R68, R86 and R96: a frame of this card's own slot that it did not send silences the transmitter and
shows in the latch, draws no receipt, enters no roster record and returns no entry (log entry 28 for the receiver), a
frame of this card that was on the line having ended LOST (log entry 32); the one that it completed last, and no other,
goes to the observer, and an idle step takes it there (log entries 6 and 22). In CONFIG mode, while SILENCED, outside
RUN, and for a frame of the card's own slot, no acting block is handed a frame, and nothing changes. -/
def Obligations.SilencedCardsOnlyObserve : Prop :=
  (∀ (s : State) (f : Frame), s.running = true → f.wf = true → f.source = s.cardSlot → CampaignSound s →
    ∃ t, exec (.frameObserved .heard f) s = .next t
      ∧ t = { s.yielded with
          line := { s.yielded.line.heard f with silenced := true, receipt := none }
          relink := { s.observed f with arrival := t.relink.arrival }
          port := s.port.latching { s.live with clash := true, stuck := false } })
  ∧ (∀ (s : State) (f : Frame), s.running = true → s.line.completed = some f → CampaignSound s →
    exec (.frameObserved .completed f) s = .next { s with
      line := { s.line with completed := none }, relink := { s.observed f with arrival := .none } }
    ∧ s.dueEvent = some (.frameObserved .completed f))
  ∧ (∀ (s : State) (f : Frame), s.line.completed ≠ some f → exec (.frameObserved .completed f) s = .next s)
  ∧ (∀ (s : State) (source : CardSlot),
     s.running = false ∨ s.active = false ∨ s.line.silenced = true ∨ source = s.cardSlot →
     (∀ figure, exec (.rollColdReceived source figure) s = .next s)
     ∧ (∀ figure, exec (.rollWarmReceived source figure) s = .next s)
     ∧ (∀ b, exec (.bidReceived source b) s = .next s)
     ∧ (∀ a, exec (.answerReceived source a) s = .next s)
     ∧ (∀ d, exec (.dropReceived source d) s = .next s)
     ∧ (∀ c, exec (.carryReceived source c) s = .next s))

/-! ### Frames handed to the acting blocks -/

/-- R60, R75, R77, R84 and R105: a ROLL COLD begins a campaign or restarts the gather timer, then fails every entry
facing its source that is neither EMPTY nor FAILED, in index order, with reason LOST, and takes its answers off the
list, but no REFUSE-UNKNOWN item; where that leaves nothing relinking and the settle timer has run out, the campaign
ends (R81). The line is left as `State.receipted` says (log entry 28). -/
def Obligations.RollColdFailsFacingEntries : Prop :=
  ∀ (s : State) (source : CardSlot) (figure : BitVec 24), s.acts source = true →
    ∃ t, exec (.rollColdReceived source figure) s = .next t
      ∧ Settles
          (((s.facing source).filter fun i => (s.entry i).state.standing).foldl
            (fun v i => (v.failedAs i .lost none).unanswered i) (s.receipted ⟨source, .every, .roll ⟨.cold, figure⟩⟩ none).rolled) t
      ∧ (∀ i, (s.entry i).farSlot = source → (s.entry i).state.standing = true →
          t.entry i = { s.entry i with state := .failed, failure := some ⟨.lost, none⟩, deadline := none }
          ∧ ∀ u ∈ t.units, u.entry ≠ i)
      ∧ (∀ i, ¬ ((s.entry i).farSlot = source ∧ (s.entry i).state.standing = true) → t.entry i = s.entry i)

/-- R60, R75, R77, R85 and R105: a ROLL WARM begins a campaign or restarts the gather timer, then returns the LIVE,
PARKED, JOINING, BIDDING, CHECKING and DEFERRED entries facing its source to PENDING, in index order, with misses 0 and
their answers, but no REFUSE-UNKNOWN item, taken off the list; a PENDING one has its misses set to 0 and nothing more. A
frame of this card on the line stays there, and its marked units in their place (R148). The line is left as
`State.receipted` says (log entry 28). -/
def Obligations.RollWarmReturnsFacingEntries : Prop :=
  ∀ (s : State) (source : CardSlot) (figure : BitVec 24), s.acts source = true →
    ∃ t, exec (.rollWarmReceived source figure) s = .next t
      ∧ t = ((s.facing source).filter fun i => (s.entry i).state.standing).foldl
          (fun v i =>
            if (s.entry i).state = .pending then v.withEntry i { s.entry i with misses := 0 }
            else (v.pendingAs i 0).unanswered i) (s.receipted ⟨source, .every, .roll ⟨.warm, figure⟩⟩ none).rolled
      ∧ (∀ i, (s.entry i).farSlot = source → (s.entry i).state.standing = true →
          (t.entry i).state = .pending ∧ (t.entry i).misses = 0 ∧ (t.entry i).attempt = (s.entry i).attempt)
      ∧ (∀ i, ¬ ((s.entry i).farSlot = source ∧ (s.entry i).state.standing = true) → t.entry i = s.entry i)
      ∧ t.units = s.units ∧ t.line.buffer = s.line.buffer ∧ t.line.drive = s.line.drive

/-- R30, R64, R98, R99, R100, R101 and R103: a BID draws TAKEN whatever its judgement, and is judged in the order
unknown, failed, discord, expired, and then by the entry's state. An answer queued replaces the item of its circuit and
origin slot in its place, or joins the tail, or is abandoned where 64 items stand and none is to be replaced. The line
is left as `State.receipted` says (log entry 28). -/
def Obligations.BidIsJudgedInOrder : Prop :=
  (∀ (s : State) (source : CardSlot) (b : Bid), s.acts source = true → b.wf = true →
    let r := s.receipted ⟨source, .card s.cardSlot, .bid b⟩ (some .taken)
    let answer := fun (verdict : Verdict) (key : Key) => (⟨b.circuit, source, b.attempt, verdict, key⟩ : AnswerItem)
    let figure := max (min b.figure.toNat 1048575) s.supply.m
    ((∀ i, s.faces b.circuit source i → (s.entry i).role ≠ .far) →
      ∃ t, exec (.bidReceived source b) s = .next t ∧ Settles (r.queued (answer .refuseUnknown 0)) t)
    ∧ ∀ i, s.faces b.circuit source i → (s.entry i).role = .far →
      (∀ j, s.faces b.circuit source j → (s.entry j).role = .far → j = i) →
      let e := s.entry i
      let accepted := { e with attempt := b.attempt }
      ∃ t, exec (.bidReceived source b) s = .next t
        ∧ (e.state = .failed → Settles (r.queued (answer .refuseFailed e.key)) t)
        ∧ (e.state ≠ .failed → b.fingerprint ≠ e.fingerprint →
            Settles ((r.failedAs i .discord none).queued (answer .refuseDiscord e.key)) t)
        ∧ (e.state ≠ .failed → b.fingerprint = e.fingerprint → s.settings.limit e.cls < figure →
            Settles ((r.failedAs i .expired none).queued (answer .refuseExpired e.key)) t)
        ∧ (e.state ≠ .failed → b.fingerprint = e.fingerprint → figure ≤ s.settings.limit e.cls →
            (e.state = .live → Settles ((r.withEntry i accepted).queued (answer .match_ e.key)) t)
            ∧ (e.state = .parked → Settles ((r.withEntry i accepted).queued (answer .matchParked e.key)) t)
            ∧ (e.state = .pending → s.switch.highway = .present →
                Settles ((r.withEntry i { accepted with state := .checking, deadline := none }).checkAsked i) t)
            ∧ (e.state = .pending → s.switch.highway = .lost →
                Settles ((r.withEntry i { accepted with state := .parked, deadline := none }).queued
                  (answer .matchParked e.key)) t)
            ∧ (e.state = .checking → Settles (r.withEntry i accepted) t)))
  ∧ (∀ (l : List AnswerItem) (a : AnswerItem),
    let same := fun b : AnswerItem => b.circuit = a.circuit ∧ b.origin = a.origin
    (∀ before b after, l = before ++ b :: after → same b → (∀ c ∈ before ++ after, ¬ same c) →
      queueAnswerItem l a = before ++ a :: after)
    ∧ ((∀ b ∈ l, ¬ same b) → l.length < 64 → queueAnswerItem l a = l ++ [a])
    ∧ ((∀ b ∈ l, ¬ same b) → 64 ≤ l.length → queueAnswerItem l a = l))

/-- R64, R82, R95, R106, R107, R108, R109, R110, R111 and R125: an ANSWER draws TAKEN, and moves the origin entry it
names where that is BIDDING, PENDING or DEFERRED with the ANSWER's attempt: to JOINING or PARKED with a check asked for,
or to FAILED. The late test reads the front as it stood before this ANSWER, through the model's own arrival record (log
entry 5). The line is left as `State.receipted` says (log entry 28). -/
def Obligations.AnswerMovesOrigin : Prop :=
  ∀ (s : State) (source : CardSlot) (a : Answer), s.acts source = true → a.wf = true →
    let r := { s.receipted ⟨source, .card s.cardSlot, .answer a⟩ (some .taken) with
      relink := { s.relink with arrival := s.relink.arrival.afterActing source a } }
    ((∀ i, ¬ s.faces a.circuit source i) → exec (.answerReceived source a) s = .next r)
    ∧ ∀ i, s.facesAlone a.circuit source i →
      let e := s.entry i
      let takes := e.role = .origin ∧ (e.state = .bidding ∨ e.state = .pending ∨ e.state = .deferred)
        ∧ e.attempt = a.attempt
      (¬ takes → exec (.answerReceived source a) s = .next r)
      ∧ (takes → ∀ late : Bool, (late = true ↔ ∃ k, s.frontBefore source a = some k ∧ e.key.toNat < k.toNat) →
        ∃ t, exec (.answerReceived source a) s = .next t
          ∧ (a.verdict = .match_ → s.switch.highway = .present →
              Settles ((r.joinedAs i .joining late).checkAsked i) t)
          ∧ (a.verdict = .matchParked → s.switch.highway = .present →
              Settles ((r.joinedAs i .parked late).checkAsked i) t)
          ∧ (a.verdict = .match_ ∨ a.verdict = .matchParked → s.switch.highway = .lost →
              Settles (r.joinedAs i .parked late) t)
          ∧ (a.verdict = .refuseUnknown → Settles (r.failedAs i .refused (some .unknown)) t)
          ∧ (a.verdict = .refuseDiscord → Settles (r.failedAs i .refused (some .discord)) t)
          ∧ (a.verdict = .refuseExpired → Settles (r.failedAs i .refused (some .expired)) t)
          ∧ (a.verdict = .refuseClash → Settles (r.failedAs i .refused (some .clash)) t)
          ∧ (a.verdict = .refuseFailed → Settles (r.failedAs i .refused (some .failed)) t))

/-- R96, R106, R108 and R109: for an origin that is BIDDING, PENDING or DEFERRED, whichever of an ANSWER's two arrivals
is taken first, the late test reads the front as it stood before that ANSWER, so the origin is late in both orders or in
neither (log entry 5). -/
def Obligations.LateTestIgnoresOrder : Prop :=
  ∀ (s : State) (source : CardSlot) (a : Answer) (i : Index),
    s.acts source = true → a.wf = true → s.relink.arrival = .none → s.facesAlone a.circuit source i →
    (s.entry i).role = .origin →
    (s.entry i).state = .bidding ∨ (s.entry i).state = .pending ∨ (s.entry i).state = .deferred →
    (s.entry i).attempt = a.attempt →
    a.verdict = .match_ ∨ a.verdict = .matchParked → CampaignSound s →
    let seen := Instr.frameObserved .heard ⟨source, .card s.cardSlot, .answer a⟩
    let taken := Instr.answerReceived source a
    ∃ p q t v, exec seen s = .next p ∧ exec taken p = .next t ∧ exec taken s = .next q ∧ exec seen q = .next v
      ∧ (t.entry i).late = (v.entry i).late
      ∧ ((t.entry i).late = true ↔ ∃ k, s.relink.front = some k ∧ (s.entry i).key.toNat < k.toNat)
      ∧ t.relink.front = v.relink.front

/-- R64, R105 and R114: a DROP draws TAKEN; the entry it names, of either role and not FAILED, fails with reason DROPPED
and the DROP's reason, and its answers leave the list, but no REFUSE-UNKNOWN item. The line is left as `State.receipted`
says (log entry 28). -/
def Obligations.DropFailsEntry : Prop :=
  ∀ (s : State) (source : CardSlot) (d : Drop), s.acts source = true → d.wf = true →
    let r := s.receipted ⟨source, .card s.cardSlot, .drop d⟩ (some .taken)
    ((∀ i, ¬ s.faces d.circuit source i) → exec (.dropReceived source d) s = .next r)
    ∧ ∀ i, s.facesAlone d.circuit source i →
      ((s.entry i).state = .failed → exec (.dropReceived source d) s = .next r)
      ∧ ((s.entry i).state ≠ .failed → ∃ t, exec (.dropReceived source d) s = .next t
          ∧ (d.reason = .cleared → Settles ((r.failedAs i .dropped (some .cleared)).unanswered i) t)
          ∧ (d.reason = .expired → Settles ((r.failedAs i .dropped (some .expired)).unanswered i) t)
          ∧ (d.reason = .clash → Settles ((r.failedAs i .dropped (some .clash)).unanswered i) t))

/-- R64, R152, R153 and R154: what becomes of a CARRY by the entry it finds and the free places of the Delivery Queue:
taken and judged whole, refused BUSY whole, or taken and discarded with UNITS DISCARDED. The line is left as
`State.receipted` says (log entry 28). -/
def Obligations.CarryIsTakenWholeOrNotAtAll : Prop :=
  ∀ (s : State) (source : CardSlot) (c : Carry), s.acts source = true → c.wf = true →
    let f : Frame := ⟨source, .card s.cardSlot, .carry c⟩
    let taken := s.receipted f (some .taken)
    let discarded := fun (entry : Byte) =>
      { taken with port := taken.port.posted [⟨.unitsDiscarded, entry, 2, BitVec.ofNat 8 c.units.length⟩] }
    ((∀ i, ¬ s.faces c.circuit source i) → exec (.carryReceived source c) s = .next (discarded 0xFF))
    ∧ ∀ i, s.facesAlone c.circuit source i →
      let e := s.entry i
      let agreed := e.state = .joining ∨ e.state = .live ∨ e.state = .parked
      let fits := c.units.length ≤ 32 - s.delivery.queue.length
      let judged := c.units.foldl (judgeUnit i e.circuit) (e.rxExpected, s.delivery.queue)
      (e.state = .failed → exec (.carryReceived source c) s = .next (discarded (BitVec.ofNat 8 i.val)))
      ∧ (agreed → fits → exec (.carryReceived source c) s = .next
          { taken.withEntry i { e with rxExpected := judged.1 } with
            delivery := { s.delivery with queue := judged.2 } })
      ∧ (agreed → ¬ fits → exec (.carryReceived source c) s = .next (s.receipted f (some .busy)))
      ∧ (¬ agreed → e.state ≠ .failed → exec (.carryReceived source c) s = .next (s.receipted f (some .busy)))

/-- R155: the units of a frame are judged one at a time in the order the body carries them, each against rx expected
as it stands after the units before it: with d their difference modulo 256, 0 is expected, 1..127 ahead, and
128..255 a duplicate. Sequences skipped by a unit ahead are duplicates if they come later. -/
def Obligations.UnitsAreJudgedInOrder : Prop :=
  (∀ (s : State) (source : CardSlot) (c : Carry) (i : Index), s.acts source = true → c.wf = true →
    s.facesAlone c.circuit source i →
    (s.entry i).state = .joining ∨ (s.entry i).state = .live ∨ (s.entry i).state = .parked →
    c.units.length ≤ 32 - s.delivery.queue.length →
    ∃ t, exec (.carryReceived source c) s = .next t
      ∧ ((t.entry i).rxExpected, t.delivery.queue)
          = c.units.foldl (judgeUnit i c.circuit) ((s.entry i).rxExpected, s.delivery.queue))
  ∧ (∀ (i : Index) (circuit : Circuit) (rx : Byte) (queue : List DeliveryRecord) (u : SignalUnit),
    let d := (u.sequence.toNat + 256 - rx.toNat) % 256
    (d = 0 → judgeUnit i circuit (rx, queue) u
      = (rx + 1, queue ++ [⟨i, circuit, u.sequence, u.content, false⟩]))
    ∧ (1 ≤ d → d ≤ 127 → judgeUnit i circuit (rx, queue) u
      = (u.sequence + 1, queue ++ [⟨i, circuit, u.sequence, u.content, true⟩]))
    ∧ (128 ≤ d → judgeUnit i circuit (rx, queue) u = (rx, queue)))
  ∧ (∀ (i : Index) (circuit : Circuit) (rx : Byte) (queue : List DeliveryRecord) (u v : SignalUnit),
    let d := (u.sequence.toNat + 256 - rx.toNat) % 256
    1 ≤ d → d ≤ 127 → (v.sequence.toNat + 256 - rx.toNat) % 256 ≤ d →
    judgeUnit i circuit (judgeUnit i circuit (rx, queue) u) v = judgeUnit i circuit (rx, queue) u)

/-! ### Outcomes of the frames sent -/

/-- R13, R65, R91, R92, R93, R94 and R95: a BID's outcome empties the buffer, and acts only where the entry it was
composed from has not been cleared since and is still the PENDING origin of that circuit and far slot: a receipt makes
it BIDDING with the answer timer at W; no receipt counts a miss, and the third makes it DEFERRED; LOST and ABORTED leave
it as it was. A frame in RECEIPT loses nothing and no output of its fails: those outcomes change nothing there (R66).
ABORTED in RUN sends the receiver to HUNT (log entry 9), and a failed output's gap count is clipped below the start gap
(log entry 17). -/
def Obligations.BidOutcomeMovesEntry : Prop :=
  ∀ (s : State) (o : SendOutcome) (source far : CardSlot) (b : Bid) (owner : Option Index) (phase : SendPhase),
    s.running = true → s.line.buffer = some ⟨⟨source, .card far, .bid b⟩, owner, phase⟩ →
    let r := s.sendEnded o
    (¬ SendOutcome.possible o phase → exec (.bidOutcome o) s = .next s)
    ∧ (SendOutcome.possible o phase → owner = none → exec (.bidOutcome o) s = .next r)
    ∧ ∀ i, SendOutcome.possible o phase → owner = some i →
    let e := s.entry i
    let stands := e.state = .pending ∧ e.role = .origin ∧ e.circuit = b.circuit ∧ e.farSlot = far
    (¬ stands → exec (.bidOutcome o) s = .next r)
    ∧ (stands → o = .taken ∨ o = .busy → exec (.bidOutcome o) s = .next
        { r.withEntry i { e with state := .bidding, attempt := b.attempt } with
          relink := { s.relink with answerTimer := some (s.now + s.settings.w) } })
    ∧ (stands → o = .noReceipt → b.attempt < 3 → exec (.bidOutcome o) s = .next
        (r.withEntry i { e with attempt := b.attempt, misses := b.attempt }))
    ∧ (stands → o = .noReceipt → 3 ≤ b.attempt → exec (.bidOutcome o) s = .next
        (r.withEntry i { e with
          state := .deferred, attempt := b.attempt, misses := b.attempt, deadline := some (s.now + s.settings.p) }))
    ∧ (o = .lost ∨ o = .aborted ∨ (∃ gap, o = .outputFailed gap) → exec (.bidOutcome o) s = .next r)

/-- R77, R83, R103, R104, R112 and R113: an answer that was sent leaves the list, where the list still holds it, and one
that was not stays; a DROP leaves on a receipt, and after the fourth send without one with DROP UNDELIVERED; a ROLL that
was SENT is pending no more, and restarts the gather timer in GATHER. A frame in RECEIPT loses nothing and no output of
its fails (R66). A DROP's outcome acts on the head of the list (log entry 21), as R113 has it, also where its entry has
been cleared, which R13 has ignored (the model's choice, log entry 33); ABORTED in RUN sends the receiver to HUNT (log
entry 9), and a failed output's gap count is clipped below the start gap (log entry 17). -/
def Obligations.ListsFollowOutcomes : Prop :=
  ∀ (s : State) (o : SendOutcome) (source dest : CardSlot) (phase : SendPhase), s.running = true →
    let r := s.sendEnded o
    let unsent := o = .lost ∨ o = .aborted ∨ ∃ gap, o = .outputFailed gap
    (∀ a owner, s.line.buffer = some ⟨⟨source, .card dest, .answer a⟩, owner, phase⟩ →
      (¬ SendOutcome.possible o phase → exec (.answerOutcome o) s = .next s)
      ∧ (SendOutcome.possible o phase → ∃ left, exec (.answerOutcome o) s = .next { r with relink := { s.relink with answers := left } }
        ∧ (unsent → left = s.relink.answers)
        ∧ (¬ unsent → left = s.relink.answers.filter fun x =>
            decide (¬ (x.circuit = a.circuit ∧ x.origin = dest ∧ x.attempt = a.attempt ∧ x.verdict = a.verdict)))))
    ∧ (∀ b owner, s.line.buffer = some ⟨⟨source, .card dest, .drop b⟩, owner, phase⟩ → ¬ SendOutcome.possible o phase →
      exec (.dropOutcome o) s = .next s)
    ∧ (∀ b owner d rest, s.line.buffer = some ⟨⟨source, .card dest, .drop b⟩, owner, phase⟩ →
      s.relink.drops = d :: rest → SendOutcome.possible o phase →
      (o = .taken ∨ o = .busy →
        exec (.dropOutcome o) s = .next { r with relink := { s.relink with drops := rest } })
      ∧ (o = .noReceipt → d.sends < 3 → exec (.dropOutcome o) s = .next
          { r with relink := { s.relink with drops := { d with sends := d.sends + 1 } :: rest } })
      ∧ (o = .noReceipt → d.sends = 3 → exec (.dropOutcome o) s = .next
          { r with
            relink := { s.relink with drops := rest }
            port := s.port.posted [⟨.dropUndelivered, 0xFF, hiByte d.circuit, loByte d.circuit⟩] })
      ∧ (unsent → exec (.dropOutcome o) s = .next r))
    ∧ (∀ x owner gap, s.line.buffer = some ⟨⟨source, .every, .roll x⟩, owner, phase⟩ →
      exec (.rollOutcome .sent) s = .next
        { s.sendEnded .noReceipt with relink := { s.relink with
          pendingRoll := none
          gatherTimer :=
            if s.relink.campaign = .gather then some (s.now + s.settings.g) else s.relink.gatherTimer } }
      ∧ exec (.rollOutcome .aborted) s = .next (s.sendEnded .aborted)
      ∧ (phase = .receipt →
        exec (.rollOutcome .lost) s = .next s ∧ exec (.rollOutcome (.outputFailed gap)) s = .next s)
      ∧ (phase ≠ .receipt →
        exec (.rollOutcome .lost) s = .next (s.sendEnded .lost)
        ∧ exec (.rollOutcome (.outputFailed gap)) s = .next (s.sendEnded (.outputFailed gap))))

/-- R141 to R147: a CARRY's receipt releases its units for good, or clears their marks and counts a strike; the fourth
no-receipt strike in a row, or the 64th busy strike, returns the entry to PENDING; strikes count only while it is
JOINING, LIVE or PARKED; with no unit marked the outcome is ignored. Where a ROLL WARM has moved the entry to PENDING
while the CARRY was on the line, the outcome removes the marked units on TAKEN, unmarks them on any other, and counts no
strike (R148). A frame in RECEIPT loses nothing and no output of its fails (R66). ABORTED in RUN sends the receiver to
HUNT (log entry 9), and a failed output's gap count is clipped below the start gap (log entry 17). -/
def Obligations.CarryOutcomeReleasesOrStrikes : Prop :=
  ∀ (s : State) (o : SendOutcome) (source far : CardSlot) (c : Carry) (owner : Option Index) (phase : SendPhase),
    s.running = true → s.line.buffer = some ⟨⟨source, .card far, .carry c⟩, owner, phase⟩ →
    let r := s.sendEnded o
    let unmarked := { r with units := s.units.map fun u => { u with inFlight := false } }
    (¬ SendOutcome.possible o phase → exec (.carryOutcome o) s = .next s)
    ∧ (SendOutcome.possible o phase → (∀ u ∈ s.units, u.inFlight = false) → exec (.carryOutcome o) s = .next r)
    ∧ ∀ i, SendOutcome.possible o phase → (∃ u ∈ s.units, u.inFlight = true) → (∀ u ∈ s.units, u.inFlight = true → u.entry = i) →
      let e := s.entry i
      let agreed := e.state = .joining ∨ e.state = .live ∨ e.state = .parked
      let released := { r with units := s.units.filter fun u => !u.inFlight }
      let missed := unmarked.withEntry i { e with noReceipt := e.noReceipt + 1, busy := 0 }
      let busied := unmarked.withEntry i { e with noReceipt := 0, busy := e.busy + 1 }
      (o = .taken → agreed →
        exec (.carryOutcome o) s = .next (released.withEntry i { e with noReceipt := 0, busy := 0 }))
      ∧ (o = .taken → ¬ agreed → exec (.carryOutcome o) s = .next released)
      ∧ (o = .noReceipt → agreed → e.noReceipt < 3 → exec (.carryOutcome o) s = .next missed)
      ∧ (o = .noReceipt → agreed → e.noReceipt = 3 → exec (.carryOutcome o) s = .next (missed.pendingAs i 0))
      ∧ (o = .busy → agreed → e.busy < 63 → exec (.carryOutcome o) s = .next busied)
      ∧ (o = .busy → agreed → e.busy = 63 → exec (.carryOutcome o) s = .next (busied.pendingAs i 0))
      ∧ (o = .busy ∨ o = .noReceipt → ¬ agreed → exec (.carryOutcome o) s = .next unmarked)
      ∧ (o = .lost ∨ o = .aborted ∨ (∃ gap, o = .outputFailed gap) → exec (.carryOutcome o) s = .next unmarked)
      ∧ (∀ figure, s.acts e.farSlot = true → e.state.standing = true →
        ∃ u t, exec (.rollWarmReceived e.farSlot figure) s = .next u ∧ u.units = s.units
          ∧ exec (.carryOutcome o) u = .next t ∧ (u.entry i).state = .pending ∧ t.table = u.table
          ∧ (o = .taken → t.units = s.units.filter fun u => !u.inFlight)
          ∧ (o ≠ .taken → t.units = s.units.map fun u => { u with inFlight := false }))

/-! ### Timers and deadlines -/

/-- R78, R79 and R80: gather close fails the PENDING entries whose class M outlasts, in index order, with a DROP from
the ORIGIN role; then makes DEFERRED the PENDING origins whose far slot was not HEARD, and gives the PENDING FAR
entries their absent deadline; and the campaign is CONTEND with the settle timer at Q. The clock stands at the
timer's tick (log entry 3). -/
def Obligations.GatherCloseSortsPendingEntries : Prop :=
  ∀ (s : State) (tick : Nat), s.running = true → s.relink.campaign = .gather → s.relink.gatherTimer = some tick →
    let b := s.elapseTo tick
    let expires := fun (i : Index) =>
      decide ((s.entry i).state = .pending ∧ s.settings.limit (s.entry i).cls < s.supply.m)
    let u := ((List.finRange 64).filter expires).foldl
      (fun v i =>
        if (s.entry i).role = .origin then
          (v.failedAs i .expired none).dropped (s.entry i).circuit (s.entry i).farSlot .expired
        else v.failedAs i .expired none) b
    ∃ t, exec .gatherClose s = .next t
      ∧ t = { u with
          table := t.table
          relink := { u.relink with
            campaign := .contend, gatherTimer := none, settleTimer := .runsOutAt (b.now + s.settings.q) } }
      ∧ (∀ i, expires i = true →
          t.entry i = { s.entry i with state := .failed, failure := some ⟨.expired, none⟩, deadline := none })
      ∧ (∀ i, expires i = false → (s.entry i).state = .pending → (s.entry i).role = .origin →
          (s.relink.roster[(s.entry i).farSlot.toFin]).heard = false →
          t.entry i = { s.entry i with state := .deferred, misses := 3, deadline := some (b.now + s.settings.p) })
      ∧ (∀ i, expires i = false → (s.entry i).state = .pending → (s.entry i).role = .origin →
          (s.relink.roster[(s.entry i).farSlot.toFin]).heard = true → t.entry i = s.entry i)
      ∧ (∀ i, expires i = false → (s.entry i).state = .pending → (s.entry i).role = .far →
          t.entry i = { s.entry i with deadline := some (b.now + s.settings.p) })
      ∧ (∀ i, (s.entry i).state ≠ .pending → t.entry i = s.entry i)

/-- R80, R81, R87, R95, R97 and R102: the settle timer's end ends the campaign at once where no entry is relinking,
and leaves it in CONTEND otherwise; an open bid lapses W after it was set, by the W in force then (log entry 27); an
answer timer that runs out counts the attempt as a miss, returning the entry to PENDING or, at the third, making it
DEFERRED; a deadline that passes fails its entry with reason ABSENT. The clock stands at the tick of the event (log
entry 3). -/
def Obligations.TimersAndDeadlinesRunOut : Prop :=
  (∀ (s : State) (tick : Nat), s.running = true → s.relink.settleTimer = .runsOutAt tick →
    s.relink.campaign = .contend →
    let b := s.elapseTo tick
    let out := { b with relink := { s.relink with settleTimer := .runOut } }
    ((∀ i, (s.entry i).state.relinking = false) → exec .settleTimerExpiry s = .next out.endedAs)
    ∧ ((∃ i, (s.entry i).state.relinking = true) → exec .settleTimerExpiry s = .next out))
  ∧ (∀ st : EntryState, st.relinking = true ↔
    st = .pending ∨ st = .bidding ∨ st = .checking ∨ st = .joining ∨ st = .deferred)
  ∧ (∀ (s : State) (b : OpenBid), s.running = true → s.relink.openBid = some b →
    exec .openBidExpiry s = .next
      { s.elapseTo (b.tick + s.settings.w) with relink := { s.relink with openBid := none } })
  ∧ (∀ (s : State) (tick : Nat),
      (s.elapseTo tick).now = max s.now tick
      ∧ s.elapseTo tick = { s with
          now := (s.elapseTo tick).now, supply := { s.supply with window := (s.elapseTo tick).supply.window } })
  ∧ (∀ (s : State) (tick : Nat) (i : Index), s.running = true → s.relink.answerTimer = some tick →
    (s.entry i).state = .bidding → (∀ j, (s.entry j).state = .bidding → j = i) →
    let b := s.elapseTo tick
    let n := (s.entry i).attempt
    (n < 3 → exec .answerTimerExpiry s = .next (b.pendingAs i n))
    ∧ (3 ≤ n → exec .answerTimerExpiry s = .next
        { b.withEntry i { s.entry i with state := .deferred, misses := n, deadline := some (b.now + s.settings.p) } with
          relink := { s.relink with answerTimer := none } }))
  ∧ (∀ (s : State) (tick : Nat) (i : Index), s.running = true → (s.entry i).state = .deferred →
    (s.entry i).deadline = some tick →
    ∃ t, exec (.deferredDeadline i) s = .next t ∧ Settles ((s.elapseTo tick).failedAs i .absent none) t)
  ∧ (∀ (s : State) (tick : Nat) (i : Index), s.running = true → (s.entry i).state = .pending →
    (s.entry i).role = .far → (s.entry i).deadline = some tick →
    ∃ t, exec (.absentDeadline i) s = .next t ∧ Settles ((s.elapseTo tick).failedAs i .absent none) t)

/-! ### The highway -/

/-- R117, R118, R121, R122 and R126: while LOST, a sync 2048 main cycles ± 4 after the one before it raises the run
count, any other starts a new run at 1, and a sync that does not come within 2052 ends the run; the sixteenth of a
run makes the highway PRESENT, queues every PARKED entry in index order, gives heads to the idle checkers, which read
from the frame that starts then, and shows in the latch; while PRESENT a stray changes nothing. -/
def Obligations.SixteenSyncsMakeHighwayPresent : Prop :=
  (∀ (s : State) (cycles : Nat) (frame : HighwayFrame), s.running = true →
     (s.switch.highway = .lost → s.switch.runCount ≠ 0 → 2044 ≤ cycles → cycles ≤ 2052 → s.switch.runCount < 15 →
       exec (.sync cycles frame) s = .next { s with switch := { s.switch with runCount := s.switch.runCount + 1 } })
     ∧ (s.switch.highway = .lost → s.switch.runCount = 0 ∨ cycles < 2044 ∨ 2052 < cycles →
       exec (.sync cycles frame) s = .next { s with switch := { s.switch with runCount := 1 } })
     ∧ (s.switch.highway = .lost →
       exec .runTimeout s = .next { s with switch := { s.switch with runCount := 0 } })
     ∧ (s.switch.highway = .present → cycles < 2044 ∨ 2052 < cycles → exec (.sync cycles frame) s = .next s))
  ∧ (∀ (s : State) (cycles : Nat) (frame : HighwayFrame), s.running = true → s.switch.highway = .lost →
     s.switch.runCount = 15 → 2044 ≤ cycles → cycles ≤ 2052 → SwitchSound s →
     let parked := (List.finRange 64).filter fun i => decide ((s.entry i).state = .parked)
     ∃ t, exec (.sync cycles frame) s = .next t
       ∧ t = { s with
           switch := { s.switch with
             highway := .present, runCount := 16, missing := 0, timing := some ⟨frame, 0⟩
             checkQueue := parked.drop 4
             checkers := Vector.ofFn fun k => parked[k.val]?.map fun i => ⟨i, 0, true⟩ }
           port := s.port.latching { s.live with lost := false } })

/-- R118, R119, R123, R124 and R126: a sync on time, and the first and second missing sync in a row, end the frame in
progress and start the next. The highway slots still to pass run one after another: in each the byte on HDI is copied,
as the slot ends, into the line channel of each entry LIVE then, the samples are filled in, and each checker that took
its index before the frame started reads its tx slot; a check ends in the slot whose reading decides it. With no check
decided in them, they leave a copy in each LIVE entry's line channel, every sample filled in and every reading counted,
and change nothing else. In the frame that starts every checker reads. What the outside brings in a frame is an operand
of the command that starts it (log entry 11). -/
def Obligations.FrameCopiesRxSlots : Prop :=
  ∀ (s : State) (frame : HighwayFrame) (x : FrameTiming), s.running = true → s.switch.highway = .present →
    TableSound s → SwitchSound s → s.switch.timing = some x → x.slot ≤ 256 →
    ∃ t, SlotsRun (256 - x.slot) s t
      ∧ ((∀ (k : Fin 4) c, s.switch.checkers[k] = some c → ¬ s.decides x.frame x.slot 256 c) →
          ∃ w, SlotsPass s x.frame x.slot 256 w ∧ t = { s with switch := w })
      ∧ (let armed := t.switch.checkers.map fun c => c.map fun k => { k with armed := true }
        (∀ cycles, 2044 ≤ cycles → cycles ≤ 2052 → exec (.sync cycles frame) s = .next { t with
          switch := { t.switch with timing := some ⟨frame, 0⟩, checkers := armed, missing := 0 } })
        ∧ (s.switch.missing < 2 → exec (.syncMissing frame) s = .next { t with
          switch := { t.switch with timing := some ⟨frame, 0⟩, checkers := armed, missing := s.switch.missing + 1 } }))

/-- R81, R118, R120, R122 and R126: the third missing sync in a row makes the highway LOST: nothing is driven or checked,
LIVE, CHECKING and JOINING entries are PARKED, each CHECKING one answering MATCH-PARKED in index order, and the
campaign ends where that leaves nothing relinking. The highway slots of the frame in progress run first, and a check
that a reading in them decides has ended by then (log entry 11); that one in highway slot 255 is taken before the loss,
where R129 lets either be first, is the model's choice (log entry 31). -/
def Obligations.ThirdMissingSyncParksEntries : Prop :=
  ∀ (s : State) (frame : HighwayFrame) (x : FrameTiming), s.running = true → s.switch.highway = .present →
    s.switch.missing = 2 → SwitchSound s → TableSound s → s.switch.timing = some x → x.slot ≤ 256 →
    ∃ v t u : State, SlotsRun (256 - x.slot) s v
      ∧ exec (.syncMissing frame) s = .next { t with port := t.port.latching { s.live with lost := true } }
      ∧ Settles u t
      ∧ (let checking := (List.finRange 64).filter fun i => decide ((v.entry i).state = .checking)
        u = { v with
          table := u.table
          relink := { v.relink with
            answers := checking.foldl
              (fun l i => queueAnswerItem l
                ⟨(v.entry i).circuit, (v.entry i).farSlot, (v.entry i).attempt, .matchParked, (v.entry i).key⟩)
              v.relink.answers }
          switch := { v.switch with
            highway := .lost, runCount := 0, missing := 0, timing := none
            checkQueue := [], checkers := Vector.replicate 4 none
            inbound := Vector.replicate 64 0xFF#8 } })
      ∧ (∀ i, u.entry i =
          if (v.entry i).state = .live ∨ (v.entry i).state = .checking ∨ (v.entry i).state = .joining then
            { v.entry i with state := .parked }
          else v.entry i)

/-- R101, R111, R112, R126, R127 and R129: a QUIET_CHECK_RESULT stands for the reading that ends the check: other than
$FF, which is FAIL, or its fourth $FF in a row, which is PASS. The frame in progress runs to the end of the highway slot
read (log entries 3 and 11), and there the checker becomes idle, the result applies to an entry in CHECKING, JOINING or
PARKED, and heads are taken: by the idle checkers, lowest number first, in queue order. With no such reading in the frame
in progress the result is discarded, as on a checker filled again (log entries 13 and 17). -/
def Obligations.QuietCheckDecides : Prop :=
  (∀ (s : State) (k : Fin 4) (c : Checker) (x : FrameTiming) (reading : Byte), s.running = true →
    s.switch.highway = .present → TableSound s → SwitchSound s → s.switch.checkers[k] = some c →
    s.switch.timing = some x → x.slot ≤ 256 →
    let n := (s.entry c.index).txSlot
    let reads := c.armed = true ∧ x.slot ≤ n.toNat ∧ (x.frame.others[n.toFin]).getD 0xFF = reading
      ∧ (reading ≠ 0xFF ∨ 3 ≤ c.samples)
    (¬ reads → exec (.quietCheckResult k reading) s = .next s)
    ∧ (reads → ∃ v t w, SlotsRun (n.toNat - x.slot) s v ∧ exec (.quietCheckResult k reading) s = .next t
        ∧ v.switch.checkers[k] = some c ∧ (v.entry c.index).state = (s.entry c.index).state
        ∧ SlotsPass v x.frame n.toNat (n.toNat + 1) w
        ∧ CheckEnds { v with switch := w } k c.index (if reading = 0xFF then .pass else .fail) t))
  ∧ (∀ (s : State) (k : Fin 4) (reading : Byte),
    s.running = false ∨ s.switch.highway = .lost ∨ s.switch.checkers[k] = none ∨ s.switch.timing = none →
    exec (.quietCheckResult k reading) s = .next s)
  ∧ (∀ (armed : Bool) (w : SlotSwitch),
    let idleBefore := fun k : Nat =>
      ((List.finRange 4).filter fun j => decide (j.val < k ∧ w.checkers[j] = none)).length
    w.fill armed = { w with
      checkQueue := w.checkQueue.drop (idleBefore 4)
      checkers := Vector.ofFn fun k =>
        match w.checkers[k] with
        | some c => some c
        | none => (w.checkQueue[idleBefore k.val]?).map fun i => ⟨i, 0, armed⟩ })

/-! ### Configuration and START -/

/-- R164, R167 and R183: outside RUN and while CRST is low no command is taken; in the wrong mode it is refused
WRONG-MODE, and with a wrong parameter count or the overlength mark BAD-PARAMETER, detail 0; a byte that names no
command is refused with detail $FF. Each refusal leaves its result bytes and an empty buffer and changes nothing
else. -/
def Obligations.CommandsAreRefusedByModeAndCount : Prop :=
  ∀ (s : State) (c : Instr),
    let config : List (Instr × List Nat) :=
      [(.setTiming, [7]), (.setClassLimit, [4]), (.setPacking, [1]), (.start, [0])]
    let active : List (Instr × List Nat) :=
      [(.writeEntry, [12]), (.clearEntry, [1]), (.readEntry, [1]), (.submitUnit, [2, 3, 4, 5, 6, 7, 8, 9]),
        (.clearCondition, [0])]
    let both : List (Instr × List Nat) :=
      [(.resetLatch, [0]), (.setAttention, [1]), (.readRoster, [0, 1]), (.readCampaign, [0]), (.readFigures, [0])]
    let unknown := ∃ code, c = .unknownCommand code ∧ code ∉ Config.commandCodes
    (s.running = false ∨ s.port.crstLow = true →
      (c ∈ (config ++ active ++ both).map Prod.fst ∨ unknown ∨ ∃ v, c = .paramWrite v) → exec c s = .next s)
    ∧ (s.running = true → s.port.crstLow = false →
      (c ∈ config.map Prod.fst → s.active = true → exec c s = .next (s.answering [0x03]))
      ∧ (c ∈ active.map Prod.fst → s.active = false → exec c s = .next (s.answering [0x03]))
      ∧ (∀ counts,
          ((c, counts) ∈ config ∧ s.active = false) ∨ ((c, counts) ∈ active ∧ s.active = true)
            ∨ (c, counts) ∈ both →
          s.port.params.length ∉ counts ∨ s.port.overlength = true →
          exec c s = .next (s.answering [0x04, 0x00]))
      ∧ (unknown → exec c s = .next (s.answering [0x04, 0xFF])))

/-- R164 and R167: a write to COMMAND is the command that the byte names by Table 10-3, and UNKNOWN COMMAND for every
other byte; a write to PARAM appends; a write to locations 2 to 7 has no meaning. -/
def Obligations.WritesNameTheirCommands : Prop :=
  (let codes : List (Byte × Instr) :=
    [(0x10, .setTiming), (0x11, .setClassLimit), (0x12, .setPacking), (0x1F, .start), (0x20, .writeEntry),
      (0x21, .clearEntry), (0x22, .readEntry), (0x30, .submitUnit), (0x31, .clearCondition), (0x40, .resetLatch),
      (0x41, .setAttention), (0x42, .readRoster), (0x43, .readCampaign), (0x44, .readFigures)]
   codes.map Prod.fst = Config.commandCodes
   ∧ ∀ code : Byte,
    (∀ c, (code, c) ∈ codes → writeAccess 0 code = c)
    ∧ ((∀ c, (code, c) ∉ codes) → writeAccess 0 code = .unknownCommand code))
  ∧ (∀ value : Byte, writeAccess 1 value = .paramWrite value)
  ∧ (∀ (location : BitVec 3) (value : Byte), 2 ≤ location.toNat → writeAccess location value = .ignoredWrite location value)
  ∧ (∀ (location : BitVec 3) (value : Byte), (writeAccess location value).wf = true)
  ∧ (∀ (s : State) (location : BitVec 3) (value : Byte), s.running = false ∨ s.port.crstLow = true →
      exec (writeAccess location value) s = .next s)

/-- R169: SET TIMING stores each of G, W, P and Q as given, or moved to the limit of its range that it passes, with
CLAMPED where any was moved and DONE where none was; and changes nothing else. A buffer of another count is refused
with detail 0. -/
def Obligations.SetTimingClampsEachValue : Prop :=
  (∀ (s : State) (g1 g0 w p1 p0 q1 q0 : Byte), s.given [g1, g0, w, p1, p0, q1, q0] → s.active = false →
    ∀ g w' p q : Nat,
      g = max 20 (min (g1.toNat * 256 + g0.toNat) 2000) → w' = max 2 (min w.toNat 50) →
      p = max 100 (min (p1.toNat * 256 + p0.toNat) 60000) → q = max 10 (min (q1.toNat * 256 + q0.toNat) 1000) →
      ∃ code, exec .setTiming s = .next { s with
          port := { s.port with settings := { s.settings with g := g, w := w', p := p, q := q } }.answered
            ([code, BitVec.ofNat 8 (g / 256), BitVec.ofNat 8 g, BitVec.ofNat 8 w', BitVec.ofNat 8 (p / 256),
              BitVec.ofNat 8 p, BitVec.ofNat 8 (q / 256), BitVec.ofNat 8 q]) }
        ∧ (code = 0x01 ↔ 20 ≤ g1.toNat * 256 + g0.toNat ∧ g1.toNat * 256 + g0.toNat ≤ 2000
            ∧ 2 ≤ w.toNat ∧ w.toNat ≤ 50
            ∧ 100 ≤ p1.toNat * 256 + p0.toNat ∧ p1.toNat * 256 + p0.toNat ≤ 60000
            ∧ 10 ≤ q1.toNat * 256 + q0.toNat ∧ q1.toNat * 256 + q0.toNat ≤ 1000)
        ∧ (code = 0x01 ∨ code = 0x02))
  ∧ (∀ s : State, s.running = true → s.port.crstLow = false → s.active = false →
    s.port.params.length ≠ 7 ∨ s.port.overlength = true →
    exec .setTiming s = .next (s.answering [0x04, 0x00]))

/-- R170 and R171: SET CLASS LIMIT stores the limit of the one class named, moved down to 1,048,575 where it lies
above, and refuses a class above 7 with detail 1; SET PACKING stores K within 1..4; each reports DONE or CLAMPED and
what it stored. A buffer of another count is refused with detail 0. -/
def Obligations.SetClassLimitAndPacking : Prop :=
  (∀ (s : State) (c l2 l1 l0 : Byte), s.given [c, l2, l1, l0] → s.active = false →
    let limit := l2.toNat * 65536 + l1.toNat * 256 + l0.toNat
    (7 < c.toNat → exec .setClassLimit s = .next (s.answering [0x04, 0x01]))
    ∧ (c.toNat ≤ 7 → ∃ t, exec .setClassLimit s = .next t
        ∧ (∀ d : BitVec 3, t.settings.limit d =
            if d.toNat = c.toNat then min limit 1048575 else s.settings.limit d)
        ∧ t = { s with
            port := ({ s.port with settings := { s.settings with limits := t.settings.limits } } : CardPort).answered
              (if limit ≤ 1048575 then [0x01, c, l2, l1, l0] else [0x02, c, 0x0F, 0xFF, 0xFF]) }))
  ∧ (∀ (s : State) (k : Byte), s.given [k] → s.active = false →
    (1 ≤ k.toNat → k.toNat ≤ 4 → exec .setPacking s = .next { s with
      port := { s.port with settings := { s.settings with k := k.toNat } }.answered [0x01, k] })
    ∧ (k = 0 → exec .setPacking s = .next { s with
      port := { s.port with settings := { s.settings with k := 1 } }.answered [0x02, 0x01] })
    ∧ (4 < k.toNat → exec .setPacking s = .next { s with
      port := { s.port with settings := { s.settings with k := 4 } }.answered [0x02, 0x04] }))
  ∧ (∀ s : State, s.running = true → s.port.crstLow = false → s.active = false →
    (s.port.params.length ≠ 4 ∨ s.port.overlength = true →
      exec .setClassLimit s = .next (s.answering [0x04, 0x00]))
    ∧ (s.port.params.length ≠ 1 ∨ s.port.overlength = true →
      exec .setPacking s = .next (s.answering [0x04, 0x00])))

/-- R74, R75, R77, R83 and R172: START sets ACTIVE mode, queues a ROLL COLD and begins a campaign in GATHER with cause
START; nothing else changes. -/
def Obligations.StartBeginsCampaign : Prop :=
  ∀ s : State, s.given [] → s.active = false →
    exec .start s = .next { s with
      relink := { s.relink with
        campaign := .gather, joined := 0, failed := 0, late := 0, front := none, pendingRoll := some .cold
        gatherTimer := some (s.now + s.settings.g), settleTimer := .stopped }
      port := ({ s.port with mode := .active }.posted [⟨.campaignBegun, 0xFF, 3, 0⟩]).answered [0x01] }

/-! ### The Circuit Table's commands -/

/-- R3, R4, R5, R7, R8, R9, R10, R80 and R125: WRITE ENTRY tests each byte in its order, then the index, the circuit
number, the tx slot and the line channel against every non-EMPTY entry, and writes the entry: PARKED with a check
asked for in STEADY, PENDING otherwise. -/
def Obligations.WriteEntryTestsThenWrites : Prop :=
  ∀ (s : State) (x c1 c0 role far ch tx rx cls o1 o0 tag : Byte),
    s.given [x, c1, c0, role, far, ch, tx, rx, cls, o1, o0, tag] → s.active = true →
    let tests : List (Nat × Bool) :=
      [(1, decide (63 < x.toNat)), (2, decide (c1 = 0 ∧ c0 = 0)), (4, decide (1 < role.toNat)),
        (5, decide (31 < far.toNat)), (6, decide (63 < ch.toNat)), (9, decide (7 < cls.toNat)),
        (10, decide (8191 < o1.toNat * 256 + o0.toNat))]
    (∀ n, tests.find? (·.2) = some (n, true) →
      exec .writeEntry s = .next (s.answering [0x04, BitVec.ofNat 8 n]))
    ∧ ∀ i : Index, tests.find? (·.2) = none → i.val = x.toNat →
      let held := fun (p : Entry → Prop) (j : Index) => (s.entry j).state ≠ .empty ∧ p (s.entry j)
      let lowest := fun (p : Entry → Prop) (j : Index) => held p j ∧ ∀ k, held p k → j ≤ k
      let sameCircuit := fun e : Entry => e.circuit = c1 ++ c0
      let sameTx := fun e : Entry => e.txSlot = tx
      let sameChannel := fun e : Entry => e.channel.toNat = ch.toNat
      let refuse := fun (kind : Byte) (j : Index) => s.answering [0x05, kind, BitVec.ofNat 8 j.val]
      ((s.entry i).state ≠ .empty → exec .writeEntry s = .next (refuse 1 i))
      ∧ ((s.entry i).state = .empty →
        (∀ j, lowest sameCircuit j → exec .writeEntry s = .next (refuse 2 j))
        ∧ ((∀ k, ¬ held sameCircuit k) → (∀ j, lowest sameTx j → exec .writeEntry s = .next (refuse 3 j)))
        ∧ ((∀ k, ¬ held sameCircuit k) → (∀ k, ¬ held sameTx k) →
            (∀ j, lowest sameChannel j → exec .writeEntry s = .next (refuse 4 j)))
        ∧ ((∀ k, ¬ held sameCircuit k) → (∀ k, ¬ held sameTx k) → (∀ k, ¬ held sameChannel k) →
            let written : Entry := { Entry.cleared with
              state := .parked, circuit := c1 ++ c0, role := if role = 0 then .origin else .far
              farSlot := far.setWidth 5, channel := ch.setWidth 6, txSlot := tx, rxSlot := rx
              cls := cls.setWidth 3, ordinal := (o1 ++ o0).setWidth 13
              key := BitVec.ofNat 16 (cls.toNat * 8192 + (o1.toNat * 256 + o0.toNat)) }
            let e := { written with fingerprint := fingerprintOf s.cardSlot written }
            let done := fun (code : Byte) =>
              [0x01, code, hiByte e.key, loByte e.key, hiByte e.fingerprint, loByte e.fingerprint]
            (s.relink.campaign = .steady → s.switch.highway = .lost →
              exec .writeEntry s = .next ((s.withEntry i e).answering (done 1)))
            ∧ (s.relink.campaign = .steady → s.switch.highway = .present →
              exec .writeEntry s = .next (((s.withEntry i e).checkAsked i).answering (done 1)))
            ∧ (s.relink.campaign = .gather → exec .writeEntry s = .next
                ((s.withEntry i { e with state := .pending }).answering (done 3)))
            ∧ (s.relink.campaign = .contend → exec .writeEntry s = .next
                ((s.withEntry i { e with
                  state := .pending
                  deadline := if role = 0 then none else some (s.now + s.settings.p) }).answering (done 3)))))

/-- R11, R12, R13, R16, R81, R105, R112 and R128: CLEAR ENTRY returns an entry to EMPTY with every field zero; one
neither EMPTY nor FAILED (a standing one) also leaves a DROP with reason CLEARED, and takes its drive, its check, its answers (but no
REFUSE-UNKNOWN item) and its units with it, and the campaign ends where that leaves nothing relinking. A frame of the
entry on the line has no owner from then on. A withdrawn check leaves the queue, in which the others keep their order,
or its checker, while the other checkers keep their counts; and idle checkers take heads. The refusal NO-ENTRY is one
byte (log entry 25). -/
def Obligations.ClearEntryLeavesNothing : Prop :=
  (∀ (s : State) (x : Byte), s.given [x] → s.active = true →
    (63 < x.toNat → exec .clearEntry s = .next (s.answering [0x04, 0x01]))
    ∧ ∀ i : Index, i.val = x.toNat →
      let e := s.entry i
      (e.state = .empty → exec .clearEntry s = .next (s.answering [0x06]))
      ∧ (e.state = .failed → exec .clearEntry s = .next
          { s with
            table := s.table.set i Entry.cleared
            line := s.lineWithout i
            units := s.units.filter fun u => u.entry != i
            port := (s.port.posted (s.discardNotices i)).answered [0x01] })
      ∧ (e.state.standing = true →
          let d := s.dropped e.circuit e.farSlot .cleared
          ∃ t : State, exec .clearEntry s = .next (t.answering [0x01])
            ∧ Settles
                { d with
                  table := s.table.set i Entry.cleared
                  line := s.lineWithout i
                  relink := { d.relink with
                    answerTimer := s.timerWithout i
                    answers := s.relink.answers.filter fun a =>
                      !(a.circuit == e.circuit && a.origin == e.farSlot && a.verdict != .refuseUnknown) }
                  switch := s.switchWithout i
                  units := s.units.filter fun u => u.entry != i
                  port := d.port.posted (s.discardNotices i) } t))
  ∧ Entry.cleared = ⟨.empty, 0, .origin, 0, 0, 0, 0, 0, 0, 0, 0, 0, 0, 0, 0, 0, 0, false, none, none⟩
  ∧ (∀ st : EntryState, st.standing = true ↔ st ≠ .empty ∧ st ≠ .failed)
  ∧ (∀ (w : SlotSwitch) (i : Index),
    w.checking i = true ↔ i ∈ w.checkQueue ∨ ∃ (k : Fin 4) (c : Checker), w.checkers[k] = some c ∧ c.index = i)
  ∧ (∀ (w : SlotSwitch) (i : Index), w.withdraw i = SlotSwitch.fill false { w with
      checkQueue := w.checkQueue.filter fun j => decide (j ≠ i)
      checkers := Vector.ofFn fun k =>
        match w.checkers[k] with
        | some c => if c.index = i then none else some c
        | none => none })

/-- R133, R134, R135, R136 and Table 1-6: SUBMIT UNIT is refused for an EMPTY or FAILED entry, the latter with the codes
of its failure record, and for a full queue, and otherwise joins the tail with the entry's tx sequence, which rises by
one. -/
def Obligations.SubmitUnitStampsSequence : Prop :=
  (∀ (s : State) (x : Byte) (content : List Byte), s.given (x :: content) → s.active = true →
    1 ≤ content.length → content.length ≤ 8 →
    (63 < x.toNat → exec .submitUnit s = .next (s.answering [0x04, 0x01]))
    ∧ ∀ i : Index, i.val = x.toNat →
      let e := s.entry i
      (e.state = .empty → exec .submitUnit s = .next (s.answering [0x06, 0x00, 0x00]))
      ∧ (∀ reason far, e.state = .failed → e.failure = some ⟨reason, far⟩ →
          exec .submitUnit s = .next (s.answering [0x06, reason.code, farCode far]))
      ∧ (e.state.standing = true → 96 ≤ s.units.length → exec .submitUnit s = .next (s.answering [0x07]))
      ∧ (e.state.standing = true → s.units.length < 96 →
          exec .submitUnit s = .next
            { (s.withEntry i { e with txSeq := e.txSeq + 1 }).answering
                [0x01, e.txSeq, BitVec.ofNat 8 (s.units.length + 1)] with
              units := s.units ++ [⟨i, e.txSeq, content, false⟩] }))
  ∧ ([.expired, .discord, .clash, .refused, .dropped, .lost, .absent] : List FailReason).map FailReason.code
      = [1, 2, 3, 4, 5, 6, 7]
  ∧ ([none, some .unknown, some .discord, some .expired, some .clash, some .failed, some .cleared] :
      List (Option FarReason)).map farCode = [0, 1, 2, 3, 4, 5, 6]

/-! ### Reading commands and the other commands of the port -/

/-- R14, R173, R174, R175 and Tables 1-5 and 1-6: what READ ENTRY, READ ROSTER, READ CAMPAIGN and READ FIGURES leave at RESULT;
they change nothing else. An EMPTY entry reads as zeros with deadline bytes $FFFF; its index byte is zero too (log
entry 10). -/
def Obligations.ReadCommandsShowState : Prop :=
  ([.empty, .parked, .live, .pending, .bidding, .deferred, .checking, .joining, .failed] : List EntryState).map
      EntryState.code = [0, 1, 2, 3, 4, 5, 6, 7, 8]
  ∧ ([.expired, .discord, .clash, .refused, .dropped, .lost, .absent] : List FailReason).map FailReason.code
      = [1, 2, 3, 4, 5, 6, 7]
  ∧ ([none, some .unknown, some .discord, some .expired, some .clash, some .failed, some .cleared] :
      List (Option FarReason)).map farCode = [0, 1, 2, 3, 4, 5, 6]
  ∧ ([.steady, .gather, .contend] : List Campaign).map Campaign.code = [0, 1, 2]
  ∧ (∀ (s : State) (x : Byte), s.given [x] → s.active = true →
     (63 < x.toNat → exec .readEntry s = .next (s.answering [0x04, 0x01]))
     ∧ ∀ i : Index, i.val = x.toNat →
       let e := s.entry i
       let number := fun n => [BitVec.ofNat 8 (n / 256), BitVec.ofNat 8 n]
       (e = Entry.cleared → exec .readEntry s = .next (s.answering
         ([0x01] ++ List.replicate 23 0x00 ++ [0xFF, 0xFF, 0x00, 0x00])))
       ∧ (e.state ≠ .empty → exec .readEntry s = .next (s.answering
         ([0x01, x, e.state.code] ++ number e.circuit.toNat
           ++ [if e.role = .origin then 0 else 1, e.farSlot.setWidth 8, e.channel.setWidth 8, e.txSlot, e.rxSlot,
             e.cls.setWidth 8]
           ++ number e.ordinal.toNat ++ number e.key.toNat ++ number e.fingerprint.toNat
           ++ [e.txSeq, e.rxExpected, BitVec.ofNat 8 e.attempt, BitVec.ofNat 8 e.misses,
             BitVec.ofNat 8 e.noReceipt, BitVec.ofNat 8 e.busy, if e.late then 1 else 0]
           ++ number (e.deadline.elim 65535 fun t => t - s.now)
           ++ e.failure.elim [0x00, 0x00] fun f => [f.reason.code, farCode f.far]))))
  ∧ (∀ s : State, s.given [] → ∃ p3 p2 p1 p0 : Byte,
    exec .readRoster s = .next (s.answering [0x01, p3, p2, p1, p0])
    ∧ ∀ c : CardSlot, (p3 ++ p2 ++ p1 ++ p0).getLsbD c.toNat = (s.relink.roster[c.toFin]).heard)
  ∧ (∀ (s : State) (x : Byte), s.given [x] → 31 < x.toNat →
    exec .readRoster s = .next (s.answering [0x04, 0x01]))
  ∧ (∀ (s : State) (x : Byte) (c : CardSlot), s.given [x] → c.toNat = x.toNat →
    let r := s.relink.roster[c.toFin]
    exec .readRoster s = .next (s.answering ([0x01, x, if r.heard then 1 else 0]
      ++ r.roll.elim [0x00, 0x00, 0x00, 0x00] fun k =>
        [if k.1 = .cold then 1 else 2, BitVec.ofNat 8 (k.2 / 65536), BitVec.ofNat 8 (k.2 / 256),
          BitVec.ofNat 8 k.2])))
  ∧ (∀ s : State, s.given [] →
    let r := s.relink
    let number := fun n => [BitVec.ofNat 8 (n / 256), BitVec.ofNat 8 n]
    let left := fun (t : Option Nat) => number (t.elim 65535 fun t => t - s.now)
    ∀ bidding : Byte,
      (∀ i, (s.entry i).state = .bidding → (∀ j, j < i → (s.entry j).state ≠ .bidding) →
        bidding = BitVec.ofNat 8 i.val) →
      ((∀ i, (s.entry i).state ≠ .bidding) → bidding = 0xFF) →
      exec .readCampaign s = .next (s.answering
        ([0x01, r.campaign.code, BitVec.ofNat 8 r.joined, BitVec.ofNat 8 r.failed, BitVec.ofNat 8 r.late]
          ++ r.front.elim [0x00, 0x00, 0x00] (fun k => [0x01, hiByte k, loByte k])
          ++ r.openBid.elim [0x00, 0x00, 0x00, 0xFF, 0xFF]
            (fun b => [0x01, hiByte b.circuit, loByte b.circuit, b.origin.setWidth 8, b.far.setWidth 8])
          ++ left r.gatherTimer
          ++ (match r.settleTimer with
              | .stopped => [0xFF, 0xFF]
              | .runOut => [0x00, 0x00]
              | .runsOutAt t => number (t - s.now))
          ++ [r.pendingRoll.elim 0 fun k => if k = .cold then 1 else 2, BitVec.ofNat 8 r.answers.length,
            BitVec.ofNat 8 r.drops.length, bidding,
            r.answerTimer.elim 0xFF fun t => BitVec.ofNat 8 (t - s.now)])))
  ∧ (∀ s : State, s.given [] →
    let u := s.supply
    let number := fun n => [BitVec.ofNat 8 (n / 65536), BitVec.ofNat 8 (n / 256), BitVec.ofNat 8 n]
    exec .readFigures s = .next (s.answering
      ([0x01, BitVec.ofNat 8 (u.a / 256), BitVec.ofNat 8 u.a] ++ number u.m ++ number u.e
        ++ [if u.calFault then 1 else 0, s.cardSlot.setWidth 8])))

/-- R68, R122, R178, R180 and R181 with Table 10-7: what the four items show live. RESET LATCH ends the pending state
and latches the live values again where they differ, and reports the latch byte; SET ATTENTION sets the mask, and
refuses a byte above 7 with detail 1. -/
def Obligations.LatchAndMaskCommands : Prop :=
  (∀ s : State, s.live = ⟨s.line.stuck, decide (s.switch.highway = .lost), s.supply.calFault, s.line.silenced⟩)
  ∧ (∀ s : State, s.given [] →
    let changed := decide (s.port.latch ≠ s.live)
    let bit := fun (b : Bool) (n : Nat) => if b then n else 0
    exec .resetLatch s = .next { s with
      port := { s.port with latch := s.live, latchPending := changed }.answered
        [0x01, BitVec.ofNat 8 (bit changed 128 + bit s.live.clash 8 + bit s.live.calFault 4 + bit s.live.lost 2
          + bit s.live.stuck 1)] })
  ∧ (∀ (s : State) (x : Byte), s.given [x] →
    (7 < x.toNat → exec .setAttention s = .next (s.answering [0x04, 0x01]))
    ∧ (x.toNat ≤ 7 → exec .setAttention s = .next { s with
        port := { s.port with mask := x.setWidth 3 }.answered [0x01, x] }))

/-- R37, R49, R164, R165, R166, R168, R177, R178, R183 and Table 10-6: what an access to PARAM, RESULT, STATUS, NOTICE, LATCH
and a location without a meaning does; outside RUN every read of any location returns $FF, and while CRST is low
RESULT and NOTICE return $00, with no other effect. Reads of locations 4 to 7 are accesses without a row (log entry
20). -/
def Obligations.AccessesToThePort : Prop :=
  ([.joined, .connected, .failed, .unitsDiscarded, .dropUndelivered, .campaignBegun, .campaignEnded] :
    List NoticeKind).map NoticeKind.code = [1, 2, 3, 4, 5, 6, 7]
  ∧ ∀ s : State,
    let data := fun (b : Byte) => { s with port := { s.port with dataOut := b } }
    (∀ location value, exec (.ignoredWrite location value) s = .next s)
    ∧ readAccess 0 s = exec .resultRead s ∧ readAccess 1 s = exec .statusRead s ∧ readAccess 2 s = exec .noticeRead s
    ∧ readAccess 3 s = exec .deliveryRead s
    ∧ (∀ location : BitVec 3, 5 ≤ location.toNat → s.running = true → readAccess location s = .next (data 0x00))
    ∧ (s.running = true → ∃ b : Byte, readAccess 4 s = .next (data b)
      ∧ (b.getLsbD 7 = true ↔ s.port.latchPending = true) ∧ b.extractLsb' 4 3 = 0
      ∧ (b.getLsbD 3 = true ↔ s.port.latch.clash = true) ∧ (b.getLsbD 2 = true ↔ s.port.latch.calFault = true)
      ∧ (b.getLsbD 1 = true ↔ s.port.latch.lost = true) ∧ (b.getLsbD 0 = true ↔ s.port.latch.stuck = true))
    ∧ (s.running = false → ∀ location : BitVec 3, readAccess location s = .next (data 0xFF))
    ∧ (s.running = false → exec .resultRead s = .next (data 0xFF) ∧ exec .statusRead s = .next (data 0xFF)
      ∧ exec .noticeRead s = .next (data 0xFF))
    ∧ (s.running = true →
      (∃ b : Byte, exec .statusRead s = .next { s with port := { s.port with dataOut := b, overflow := false } }
        ∧ (b.getLsbD 7 = true ↔ s.active = true)
        ∧ b.extractLsb' 5 2 = (match s.relink.campaign with | .steady => 0 | .gather => 1 | .contend => 2)
        ∧ (b.getLsbD 4 = true ↔ s.port.latchPending = true)
        ∧ (b.getLsbD 3 = true ↔ s.port.notices ≠ [] ∨ s.port.noticeBuffer ≠ none)
        ∧ (b.getLsbD 2 = true ↔ s.delivery.queue ≠ [] ∨ s.delivery.buffer ≠ none)
        ∧ (b.getLsbD 1 = true ↔ s.port.overflow = true)
        ∧ b.getLsbD 0 = false)
      ∧ (s.port.crstLow = true →
        exec .resultRead s = .next (data 0x00) ∧ exec .noticeRead s = .next (data 0x00))
      ∧ (s.port.crstLow = false →
        (∀ v, s.port.params.length < 12 →
          exec (.paramWrite v) s = .next { s with port := { s.port with params := s.port.params ++ [v] } })
        ∧ (∀ v, 12 ≤ s.port.params.length →
          exec (.paramWrite v) s = .next { s with port := { s.port with overlength := true } })
        ∧ (∀ b, s.port.results[s.port.resultPos]? = some b →
          exec .resultRead s = .next
            { s with port := { s.port with dataOut := b, resultPos := s.port.resultPos + 1 } })
        ∧ (s.port.results.length ≤ s.port.resultPos → exec .resultRead s = .next (data 0x00))
        ∧ (s.port.noticeBuffer = none → s.port.noticePos = 0 →
          exec .noticeRead s = .next { s with port := { s.port with
            dataOut := 0x00, notices := s.port.notices.tail, noticeBuffer := s.port.notices.head? } })
        ∧ (∀ n, s.port.noticeBuffer = some n →
          let bytes := [n.kind.code, n.entry, n.a, n.b]
          (∀ b, s.port.noticePos < 3 → bytes[s.port.noticePos]? = some b →
            exec .noticeRead s = .next
              { s with port := { s.port with dataOut := b, noticePos := s.port.noticePos + 1 } })
          ∧ (s.port.noticePos = 3 → exec .noticeRead s = .next { s with port := { s.port with
              dataOut := n.b, noticePos := 0, notices := s.port.notices.tail
              noticeBuffer := s.port.notices.head? } }))))

/-- R157, R158, R159, R160, R161 and R183: a DELIVERY read returns the byte at the read position; the last byte of a
record fetches the next: a NONE record leaves the queue, a GAP record stays at the head and is copied, an empty queue
gives the EMPTY marker. CLEAR CONDITION removes a GAP record from the head, and its copy from the read buffer; with
none there it changes nothing. -/
def Obligations.DeliveryServesRecordsAndLocks : Prop :=
  (∀ s : State,
     let d := s.delivery
     let data := fun (b : Byte) => { s with port := { s.port with dataOut := b } }
     let fetched : DeliveryUnit :=
       { queue := if s.deliveryLocked then d.queue else d.queue.tail, buffer := d.queue.head?, position := 0 }
     (s.running = false → exec .deliveryRead s = .next (data 0xFF))
     ∧ (s.running = true → s.port.crstLow = true → exec .deliveryRead s = .next (data 0x00))
     ∧ (s.running = true → s.port.crstLow = false → d.buffer = none → d.position = 0 →
         exec .deliveryRead s = .next { data 0x00 with delivery := fetched })
     ∧ (∀ r b, s.running = true → s.port.crstLow = false → d.buffer = some r →
         let bytes := [if r.gap then 0x02 else 0x01, BitVec.ofNat 8 r.entry.val, hiByte r.circuit, loByte r.circuit,
           r.sequence, BitVec.ofNat 8 r.content.length] ++ r.content
         bytes[d.position]? = some b →
         (d.position + 1 < bytes.length →
           exec .deliveryRead s = .next { data b with delivery := { d with position := d.position + 1 } })
         ∧ (d.position + 1 = bytes.length → exec .deliveryRead s = .next { data b with delivery := fetched }))
     ∧ (s.deliveryLocked = true ↔ ∃ r rest, d.queue = r :: rest ∧ r.gap = true))
  ∧ (∀ s : State, s.given [] → s.active = true →
     (∀ r rest, s.delivery.queue = r :: rest → r.gap = true →
       let done := s.answering [0x01, BitVec.ofNat 8 r.entry.val, r.sequence]
       ((∀ c, s.delivery.buffer = some c → c.gap = false) →
         exec .clearCondition s = .next { done with delivery := { s.delivery with queue := rest } })
       ∧ (∀ c, s.delivery.buffer = some c → c.gap = true →
         exec .clearCondition s = .next { done with delivery := { queue := rest, buffer := none, position := 0 } }))
     ∧ (∀ r rest, s.delivery.queue = r :: rest → r.gap = false →
         exec .clearCondition s = .next (s.answering [0x08]))
     ∧ (s.delivery.queue = [] → exec .clearCondition s = .next (s.answering [0x08])))

/-- R183 and R184: a falling edge on CRST in RUN resets what the card processor sees and touches nothing else; a
rising edge only ends it; with CRST already low there is no falling edge (log entry 16). Outside RUN the edge is
recorded, and taken first at the WAKE end, in either mode, so the notice CAMPAIGN BEGUN survives it; the rest of the
WAKE end is as with no edge recorded. -/
def Obligations.CardResetReachesPortAlone : Prop :=
  (∀ s : State,
     (s.running = true → s.port.crstLow = false → exec .cardReset s = .next { s with
       port := { s.port with
         params := [], overlength := false, results := [], resultPos := 0, noticeBuffer := none, noticePos := 0
         notices := [], overflow := false, mask := 0, latch := s.live, latchPending := false, crstLow := true }
       delivery := { s.delivery with buffer := none, position := 0 } })
     ∧ (s.running = false → s.port.crstLow = false →
       exec .cardReset s = .next { s with port := { s.port with crstLow := true, crstEdge := true } })
     ∧ (s.port.crstLow = true → exec .cardReset s = .next s)
     ∧ exec .cardResetRelease s = .next { s with port := { s.port with crstLow := false } })
  ∧ (∀ (s : State) (aux : Nat) (straps : CardSlot), s.supply.power = .wake → s.supply.retention = true →
     s.port.crstEdge = true →
     exec (.wakeEnd aux straps) s = exec (.wakeEnd aux straps) { s with
       port := { s.port with
         params := [], overlength := false, results := [], resultPos := 0, noticeBuffer := none, noticePos := 0
         notices := [], overflow := false, mask := 0, latch := s.live, latchPending := false, crstEdge := false }
       delivery := { s.delivery with buffer := none, position := 0 } })
  ∧ (∀ (s : State) (aux : Nat) (straps : CardSlot), s.supply.power = .wake → s.supply.retention = true →
     s.active = true → s.port.crstEdge = true →
     ∃ t, exec (.wakeEnd aux straps) s = .next t
       ∧ t.port.notices = [⟨.campaignBegun, 0xFF, 1, 0⟩] ∧ t.port.overflow = false
       ∧ t.port.crstEdge = false ∧ t.port.crstLow = s.port.crstLow
       ∧ t.port.params = [] ∧ t.port.overlength = false ∧ t.port.results = [] ∧ t.port.mask = 0
       ∧ t.port.noticeBuffer = none ∧ t.delivery.buffer = none ∧ t.delivery.queue = s.delivery.queue
       ∧ t.port.mode = .active ∧ t.port.settings = s.port.settings ∧ t.relink.campaign = .gather
       ∧ t.units = s.units)

/-- R50, R54, R60, R65, R119, R123, R137 and R182: HDO carries, in the tx slot of each LIVE entry, the outbound sample
of its line channel, and is three-state in every other slot, outside RUN and while LOST, each slot's bits in main cycles
8n to 8n + 7 from the most significant, and three-state in the cycles of a frame beyond 2047, where its sync is late
(log entry 29); HDI carries that sample back where no other station drives the slot; SLN carries the frame's stuffed
bits while the transmitter is CONTENDING or SENDING, an abort's, or a receipt's, and nothing of this part in CONFIG mode
or while SILENCED (R68); the transmitter is in one of its five states; UQRDY and ATTN follow their sources. -/
def Obligations.PinsFollowState : Prop :=
  ∀ s : State,
    (∀ i, TableSound s → s.running = true → s.switch.highway = .present → (s.entry i).state = .live →
      s.hdoSample (s.entry i).txSlot = some s.switch.outbound[(s.entry i).channel.toFin])
    ∧ (∀ slot, s.running = false ∨ s.switch.highway = .lost
        ∨ (∀ i, (s.entry i).state = .live → (s.entry i).txSlot ≠ slot) → s.hdoSample slot = none)
    ∧ (∀ (slot : Byte) (b : Fin 8), slotCycle slot b = 8 * slot.toNat + b.val
        ∧ s.hdoBit (slotCycle slot b) = (s.hdoSample slot).map fun x => x.getLsbD (7 - b.val))
    ∧ (∀ cycle, 2048 ≤ cycle → s.hdoBit cycle = none)
    ∧ (∀ slot, slotOfBits (fun cycle => (s.hdoBit cycle).getD true) slot = (s.hdoSample slot).getD 0xFF)
    ∧ (∀ (frame : HighwayFrame) (slot : Byte), s.hdiByte frame slot =
        match frame.others[slot.toFin], s.hdoSample slot with
        | some b, _ => b
        | none, some b => b
        | none, none => 0xFF)
    ∧ (s.line.drive = .abort → s.slnBits = List.replicate 8 false)
    ∧ (∀ f, s.line.drive = .frame → s.line.buffer = some f → s.slnBits = lineBits f.frame)
    ∧ (s.line.drive = .released → s.slnBits =
        match s.line.receipt with
        | none => []
        | some .taken => [false, true]
        | some .busy => [false, false])
    ∧ (FramesSound s → s.line.silenced = true → s.slnBits = [])
    ∧ (ConfigSound s → s.active = false → s.slnBits = [])
    ∧ (s.line.transmitter = .silenced ↔ s.line.silenced = true)
    ∧ (s.line.transmitter = .idle ↔ s.line.silenced = false ∧ s.line.buffer = none)
    ∧ (∀ f, s.line.silenced = false → s.line.buffer = some f →
        (s.line.transmitter = .contending ↔ f.phase = .contending)
        ∧ (s.line.transmitter = .sending ↔ f.phase = .sending)
        ∧ (s.line.transmitter = .receipt ↔ f.phase = .receipt))
    ∧ (s.uqrdy = true ↔ s.active = true ∧ s.running = true ∧ s.units.length < 96)
    ∧ (s.attn = true ↔ s.running = true
        ∧ ((s.port.mask.getLsbD 0 = true ∧ (s.port.notices ≠ [] ∨ s.port.noticeBuffer ≠ none))
          ∨ (s.port.mask.getLsbD 1 = true ∧ (s.delivery.queue ≠ [] ∨ s.delivery.buffer ≠ none))
          ∨ (s.port.mask.getLsbD 2 = true ∧ s.port.latchPending = true)))

/-! ### Figures, keys and fingerprints -/

/-- R24, R26 and R29: E is 64 × T / A to the nearest whole ms, an exact half going up, and 1,048,575 where that is
larger or T is saturated; M adds E and stops at 1,048,575; the survival test passes a figure up to the limit, and
1,048,575 stands for unlimited. -/
def Obligations.FiguresAreReckonedExactly : Prop :=
  (∀ t a : Nat, t < 16777215 → 1024 ≤ a → a ≤ 4095 → ∃ q,
    2 * a * q ≤ 128 * t + a ∧ 128 * t + a < 2 * a * q + 2 * a ∧ episodeFigure t a = min q 1048575)
  ∧ (∀ t a : Nat, 16777215 ≤ t → episodeFigure t a = 1048575)
  ∧ (∀ t a : Nat, t < 16777215 → 1024 ≤ a → (episodeFigure t a = 0 ↔ 128 * t < a))
  ∧ (∀ t a : Nat, t < 16777215 → 1025 ≤ a → episodeFigure t a < 1048575)
  ∧ (∀ m e : Nat, accumulate m e = if m + e ≤ 1048575 then m + e else 1048575)
  ∧ (∀ (g : Settings) (c : BitVec 3) (figure : Nat),
      (g.survives c figure = true ↔ figure ≤ g.limit c)
      ∧ (g.limit c = 1048575 → figure ≤ 1048575 → g.survives c figure = true)
      ∧ (g.limit c = 0 → (g.survives c figure = true ↔ figure = 0)))

/-- R3, R4, R32 and R33: the key is class × 8192 + ordinal, so distinct pairs have distinct keys; the fingerprint is the
two-sum of nine bytes in origin-first order, each byte added to the first sum and that to the second, modulo 255; the two
halves of one circuit reckon one fingerprint; no byte of it is $FF; and it sees a difference in any one of its nine bytes
but 0 against 255. -/
def Obligations.HalvesShareKeyAndFingerprint : Prop :=
  (∀ (c : BitVec 3) (o : BitVec 13), (keyOf c o).toNat = c.toNat * 8192 + o.toNat)
  ∧ (∀ (c d : BitVec 3) (o p : BitVec 13), keyOf c o = keyOf d p → c = d ∧ o = p)
  ∧ (∀ (near away : CardSlot) (e f : Entry), e.role = .origin → f.role = .far → e.circuit = f.circuit →
      e.farSlot = away → f.farSlot = near → e.txSlot = f.rxSlot → e.rxSlot = f.txSlot → e.cls = f.cls →
      e.ordinal = f.ordinal → fingerprintOf near e = fingerprintOf away f)
  ∧ (∀ (own : CardSlot) (e : Entry),
      let here : Byte := own.setWidth 8
      let away : Byte := e.farSlot.setWidth 8
      fingerprintOf own e = twoSum (
        [BitVec.ofNat 8 (e.circuit.toNat / 256), BitVec.ofNat 8 e.circuit.toNat]
          ++ (if e.role = .origin then [here, away, e.txSlot, e.rxSlot] else [away, here, e.rxSlot, e.txSlot])
          ++ [e.cls.setWidth 8, BitVec.ofNat 8 (e.ordinal.toNat / 256), BitVec.ofNat 8 e.ordinal.toNat]))
  ∧ twoSum [] = 0
  ∧ (∀ (bs : List Byte) (b : Byte),
      let first := ((twoSum bs).toNat % 256 + b.toNat) % 255
      twoSum (bs ++ [b]) = BitVec.ofNat 16 (((twoSum bs).toNat / 256 + first) % 255 * 256 + first))
  ∧ (∀ w : BitVec 16, hiByte w = BitVec.ofNat 8 (w.toNat / 256) ∧ loByte w = BitVec.ofNat 8 w.toNat)
  ∧ (∀ bs : List Byte, hiByte (twoSum bs) ≠ 0xFF ∧ loByte (twoSum bs) ≠ 0xFF)
  ∧ (∀ (before after : List Byte) (a b : Byte), a ≠ b → ¬ (a = 0 ∧ b = 255) → ¬ (a = 255 ∧ b = 0) →
      twoSum (before ++ [a] ++ after) ≠ twoSum (before ++ [b] ++ after))

/-! ### The rules of every moment -/

/-- R1, R5, R19, R21, R27, R73, R131, R163 and R179: the part right after a cold start meets every rule of every
moment, and stands as Table 3-3 says; with its straps at 0 and nothing waiting (log entries 1 and 2). -/
def Obligations.ResetIsSound : Prop :=
  Sound State.reset
    ∧ State.reset.running = true ∧ State.reset.active = false ∧ State.reset.pending = []
    ∧ State.reset.supply.a = 2097 ∧ State.reset.supply.m = 0 ∧ State.reset.supply.e = 0 ∧ State.reset.supply.t = 0
    ∧ State.reset.supply.retention = true
    ∧ (∀ i, State.reset.entry i = Entry.cleared)
    ∧ State.reset.relink.campaign = .steady ∧ State.reset.switch.highway = .lost
    ∧ State.reset.line.receiver = .hunt ∧ State.reset.line.buffer = none
    ∧ State.reset.settings = ⟨200, 10, 5000, 100, 2, Vector.replicate 8 60000⟩
    ∧ State.reset.latchByte = 0x02 ∧ State.reset.statusByte = 0x00

/-- Every step keeps every count, figure, list, configuration item and read position in its range (R20, R23, R24, R26,
R51, R55, R82, R103, R112, R117, R126, R133, R146, R152, R166, R169, R176), and the highway slots that have passed at most
256 (R119; log entry 11). -/
def Obligations.StepsKeepRanges : Prop :=
  ∀ s t : State, InRange s → step s = .next t → InRange t

/-- Every step keeps the Circuit Table sound (R1, R3, R4, R5, R6). -/
def Obligations.StepsKeepTable : Prop :=
  ∀ s t : State, TableSound s → step s = .next t → TableSound t

/-- Every step keeps the campaign sound, with its timers, its M and its deadlines, and a card in CONFIG mode empty and
silent (R19, R27, R68, R73, R80, R81, R89, R158). -/
def Obligations.StepsKeepCampaign : Prop :=
  ∀ s t : State, ConfigSound s ∧ CampaignSound s ∧ DeadlinesSound s → step s = .next t →
    ConfigSound t ∧ CampaignSound t ∧ DeadlinesSound t

/-- Every step keeps one bid at a time (R90, R91, R95), and the states of one role with that role. -/
def Obligations.StepsKeepOneBid : Prop :=
  ∀ s t : State, BiddingSound s → step s = .next t → BiddingSound t

/-- Every step keeps a latch that is not pending equal to the live values (R178, R180), and SHELF LINE STUCK while the
dominant count is past 2000 (R55). -/
def Obligations.StepsKeepLatch : Prop :=
  ∀ s t : State, LatchSound s → step s = .next t → LatchSound t

/-- Every step keeps the Slot Switch sound: checks only for entries that wait for one, one each, and drive and samples
only for LIVE entries (R120, R123, R125, R126, R128); and a frame is timed exactly while PRESENT (log entry 11). -/
def Obligations.StepsKeepSwitch : Prop :=
  ∀ s t : State, SwitchSound s → ConfigSound s → step s = .next t → SwitchSound t

/-- Every step keeps the units of each entry in one unbroken run of sequences, the marked ones its oldest, and marks
only with a CARRY in the transmit buffer, which is empty outside RUN (R71, R133, R134, R140, R141). -/
def Obligations.StepsKeepUnitOrder : Prop :=
  ∀ s t : State, UnitsSound s → step s = .next t → UnitsSound t

/-- Every step keeps the frame in the transmit buffer, and the one last completed, well formed and of this card's own
slot, and all that frames are composed from fit for one (R56, R57, R65, R70); the frame in the buffer driven until its
receipt field, no abort in RUN (R54, R60), nothing driven while SILENCED (R68), and nothing in the buffer outside RUN
(R71). -/
def Obligations.StepsComposeWellFormedFrames : Prop :=
  ∀ s t : State, FramesSound s → step s = .next t → FramesSound t
end

