-- ==== Sys2Proof/Laws/State.lean ====
section
/-! SUPPORT. One lemma per field per update of the state, each true by `rfl`, and the same for what is read
through them (the entry at an index, the power state, the mode, the configuration), so that no later proof
unfolds an update. -/

namespace Sys2Proof.Machine


/-! ### `setEntry` -/

@[simp] theorem State.setEntry_table (s : State) (i : Index) (e : Entry) : (s.setEntry i e).table = s.table.set i e := rfl
@[simp] theorem State.setEntry_supply (s : State) (i : Index) (e : Entry) : (s.setEntry i e).supply = s.supply := rfl
@[simp] theorem State.setEntry_relink (s : State) (i : Index) (e : Entry) : (s.setEntry i e).relink = s.relink := rfl
@[simp] theorem State.setEntry_line (s : State) (i : Index) (e : Entry) : (s.setEntry i e).line = s.line := rfl
@[simp] theorem State.setEntry_switch (s : State) (i : Index) (e : Entry) : (s.setEntry i e).switch = s.switch := rfl
@[simp] theorem State.setEntry_units (s : State) (i : Index) (e : Entry) : (s.setEntry i e).units = s.units := rfl
@[simp] theorem State.setEntry_delivery (s : State) (i : Index) (e : Entry) : (s.setEntry i e).delivery = s.delivery := rfl
@[simp] theorem State.setEntry_port (s : State) (i : Index) (e : Entry) : (s.setEntry i e).port = s.port := rfl
@[simp] theorem State.setEntry_cardSlot (s : State) (i : Index) (e : Entry) : (s.setEntry i e).cardSlot = s.cardSlot := rfl
@[simp] theorem State.setEntry_now (s : State) (i : Index) (e : Entry) : (s.setEntry i e).now = s.now := rfl
@[simp] theorem State.setEntry_freeCount (s : State) (i : Index) (e : Entry) : (s.setEntry i e).freeCount = s.freeCount := rfl
@[simp] theorem State.setEntry_pending (s : State) (i : Index) (e : Entry) : (s.setEntry i e).pending = s.pending := rfl
@[simp] theorem State.setEntry_running (s : State) (i : Index) (e : Entry) : (s.setEntry i e).running = s.running := rfl
@[simp] theorem State.setEntry_active (s : State) (i : Index) (e : Entry) : (s.setEntry i e).active = s.active := rfl
@[simp] theorem State.setEntry_settings (s : State) (i : Index) (e : Entry) : (s.setEntry i e).settings = s.settings := rfl

/-! ### `onSupply` -/

@[simp] theorem State.onSupply_table (s : State) (f : SupplyMonitor → SupplyMonitor) : (s.onSupply f).table = s.table := rfl
@[simp] theorem State.onSupply_supply (s : State) (f : SupplyMonitor → SupplyMonitor) : (s.onSupply f).supply = f s.supply := rfl
@[simp] theorem State.onSupply_relink (s : State) (f : SupplyMonitor → SupplyMonitor) : (s.onSupply f).relink = s.relink := rfl
@[simp] theorem State.onSupply_line (s : State) (f : SupplyMonitor → SupplyMonitor) : (s.onSupply f).line = s.line := rfl
@[simp] theorem State.onSupply_switch (s : State) (f : SupplyMonitor → SupplyMonitor) : (s.onSupply f).switch = s.switch := rfl
@[simp] theorem State.onSupply_units (s : State) (f : SupplyMonitor → SupplyMonitor) : (s.onSupply f).units = s.units := rfl
@[simp] theorem State.onSupply_delivery (s : State) (f : SupplyMonitor → SupplyMonitor) : (s.onSupply f).delivery = s.delivery := rfl
@[simp] theorem State.onSupply_port (s : State) (f : SupplyMonitor → SupplyMonitor) : (s.onSupply f).port = s.port := rfl
@[simp] theorem State.onSupply_cardSlot (s : State) (f : SupplyMonitor → SupplyMonitor) : (s.onSupply f).cardSlot = s.cardSlot := rfl
@[simp] theorem State.onSupply_now (s : State) (f : SupplyMonitor → SupplyMonitor) : (s.onSupply f).now = s.now := rfl
@[simp] theorem State.onSupply_freeCount (s : State) (f : SupplyMonitor → SupplyMonitor) : (s.onSupply f).freeCount = s.freeCount := rfl
@[simp] theorem State.onSupply_pending (s : State) (f : SupplyMonitor → SupplyMonitor) : (s.onSupply f).pending = s.pending := rfl
@[simp] theorem State.onSupply_entry (s : State) (f : SupplyMonitor → SupplyMonitor) (j : Index) : (s.onSupply f).entry j = s.entry j := rfl
@[simp] theorem State.onSupply_active (s : State) (f : SupplyMonitor → SupplyMonitor) : (s.onSupply f).active = s.active := rfl
@[simp] theorem State.onSupply_settings (s : State) (f : SupplyMonitor → SupplyMonitor) : (s.onSupply f).settings = s.settings := rfl

/-! ### `onRelink` -/

@[simp] theorem State.onRelink_table (s : State) (f : RelinkEngine → RelinkEngine) : (s.onRelink f).table = s.table := rfl
@[simp] theorem State.onRelink_supply (s : State) (f : RelinkEngine → RelinkEngine) : (s.onRelink f).supply = s.supply := rfl
@[simp] theorem State.onRelink_relink (s : State) (f : RelinkEngine → RelinkEngine) : (s.onRelink f).relink = f s.relink := rfl
@[simp] theorem State.onRelink_line (s : State) (f : RelinkEngine → RelinkEngine) : (s.onRelink f).line = s.line := rfl
@[simp] theorem State.onRelink_switch (s : State) (f : RelinkEngine → RelinkEngine) : (s.onRelink f).switch = s.switch := rfl
@[simp] theorem State.onRelink_units (s : State) (f : RelinkEngine → RelinkEngine) : (s.onRelink f).units = s.units := rfl
@[simp] theorem State.onRelink_delivery (s : State) (f : RelinkEngine → RelinkEngine) : (s.onRelink f).delivery = s.delivery := rfl
@[simp] theorem State.onRelink_port (s : State) (f : RelinkEngine → RelinkEngine) : (s.onRelink f).port = s.port := rfl
@[simp] theorem State.onRelink_cardSlot (s : State) (f : RelinkEngine → RelinkEngine) : (s.onRelink f).cardSlot = s.cardSlot := rfl
@[simp] theorem State.onRelink_now (s : State) (f : RelinkEngine → RelinkEngine) : (s.onRelink f).now = s.now := rfl
@[simp] theorem State.onRelink_freeCount (s : State) (f : RelinkEngine → RelinkEngine) : (s.onRelink f).freeCount = s.freeCount := rfl
@[simp] theorem State.onRelink_pending (s : State) (f : RelinkEngine → RelinkEngine) : (s.onRelink f).pending = s.pending := rfl
@[simp] theorem State.onRelink_entry (s : State) (f : RelinkEngine → RelinkEngine) (j : Index) : (s.onRelink f).entry j = s.entry j := rfl
@[simp] theorem State.onRelink_running (s : State) (f : RelinkEngine → RelinkEngine) : (s.onRelink f).running = s.running := rfl
@[simp] theorem State.onRelink_active (s : State) (f : RelinkEngine → RelinkEngine) : (s.onRelink f).active = s.active := rfl
@[simp] theorem State.onRelink_settings (s : State) (f : RelinkEngine → RelinkEngine) : (s.onRelink f).settings = s.settings := rfl

/-! ### `onLine` -/

@[simp] theorem State.onLine_table (s : State) (f : ShelfLine → ShelfLine) : (s.onLine f).table = s.table := rfl
@[simp] theorem State.onLine_supply (s : State) (f : ShelfLine → ShelfLine) : (s.onLine f).supply = s.supply := rfl
@[simp] theorem State.onLine_relink (s : State) (f : ShelfLine → ShelfLine) : (s.onLine f).relink = s.relink := rfl
@[simp] theorem State.onLine_line (s : State) (f : ShelfLine → ShelfLine) : (s.onLine f).line = f s.line := rfl
@[simp] theorem State.onLine_switch (s : State) (f : ShelfLine → ShelfLine) : (s.onLine f).switch = s.switch := rfl
@[simp] theorem State.onLine_units (s : State) (f : ShelfLine → ShelfLine) : (s.onLine f).units = s.units := rfl
@[simp] theorem State.onLine_delivery (s : State) (f : ShelfLine → ShelfLine) : (s.onLine f).delivery = s.delivery := rfl
@[simp] theorem State.onLine_port (s : State) (f : ShelfLine → ShelfLine) : (s.onLine f).port = s.port := rfl
@[simp] theorem State.onLine_cardSlot (s : State) (f : ShelfLine → ShelfLine) : (s.onLine f).cardSlot = s.cardSlot := rfl
@[simp] theorem State.onLine_now (s : State) (f : ShelfLine → ShelfLine) : (s.onLine f).now = s.now := rfl
@[simp] theorem State.onLine_freeCount (s : State) (f : ShelfLine → ShelfLine) : (s.onLine f).freeCount = s.freeCount := rfl
@[simp] theorem State.onLine_pending (s : State) (f : ShelfLine → ShelfLine) : (s.onLine f).pending = s.pending := rfl
@[simp] theorem State.onLine_entry (s : State) (f : ShelfLine → ShelfLine) (j : Index) : (s.onLine f).entry j = s.entry j := rfl
@[simp] theorem State.onLine_running (s : State) (f : ShelfLine → ShelfLine) : (s.onLine f).running = s.running := rfl
@[simp] theorem State.onLine_active (s : State) (f : ShelfLine → ShelfLine) : (s.onLine f).active = s.active := rfl
@[simp] theorem State.onLine_settings (s : State) (f : ShelfLine → ShelfLine) : (s.onLine f).settings = s.settings := rfl

/-! ### `onSwitch` -/

@[simp] theorem State.onSwitch_table (s : State) (f : SlotSwitch → SlotSwitch) : (s.onSwitch f).table = s.table := rfl
@[simp] theorem State.onSwitch_supply (s : State) (f : SlotSwitch → SlotSwitch) : (s.onSwitch f).supply = s.supply := rfl
@[simp] theorem State.onSwitch_relink (s : State) (f : SlotSwitch → SlotSwitch) : (s.onSwitch f).relink = s.relink := rfl
@[simp] theorem State.onSwitch_line (s : State) (f : SlotSwitch → SlotSwitch) : (s.onSwitch f).line = s.line := rfl
@[simp] theorem State.onSwitch_switch (s : State) (f : SlotSwitch → SlotSwitch) : (s.onSwitch f).switch = f s.switch := rfl
@[simp] theorem State.onSwitch_units (s : State) (f : SlotSwitch → SlotSwitch) : (s.onSwitch f).units = s.units := rfl
@[simp] theorem State.onSwitch_delivery (s : State) (f : SlotSwitch → SlotSwitch) : (s.onSwitch f).delivery = s.delivery := rfl
@[simp] theorem State.onSwitch_port (s : State) (f : SlotSwitch → SlotSwitch) : (s.onSwitch f).port = s.port := rfl
@[simp] theorem State.onSwitch_cardSlot (s : State) (f : SlotSwitch → SlotSwitch) : (s.onSwitch f).cardSlot = s.cardSlot := rfl
@[simp] theorem State.onSwitch_now (s : State) (f : SlotSwitch → SlotSwitch) : (s.onSwitch f).now = s.now := rfl
@[simp] theorem State.onSwitch_freeCount (s : State) (f : SlotSwitch → SlotSwitch) : (s.onSwitch f).freeCount = s.freeCount := rfl
@[simp] theorem State.onSwitch_pending (s : State) (f : SlotSwitch → SlotSwitch) : (s.onSwitch f).pending = s.pending := rfl
@[simp] theorem State.onSwitch_entry (s : State) (f : SlotSwitch → SlotSwitch) (j : Index) : (s.onSwitch f).entry j = s.entry j := rfl
@[simp] theorem State.onSwitch_running (s : State) (f : SlotSwitch → SlotSwitch) : (s.onSwitch f).running = s.running := rfl
@[simp] theorem State.onSwitch_active (s : State) (f : SlotSwitch → SlotSwitch) : (s.onSwitch f).active = s.active := rfl
@[simp] theorem State.onSwitch_settings (s : State) (f : SlotSwitch → SlotSwitch) : (s.onSwitch f).settings = s.settings := rfl

/-! ### `onDelivery` -/

@[simp] theorem State.onDelivery_table (s : State) (f : DeliveryUnit → DeliveryUnit) : (s.onDelivery f).table = s.table := rfl
@[simp] theorem State.onDelivery_supply (s : State) (f : DeliveryUnit → DeliveryUnit) : (s.onDelivery f).supply = s.supply := rfl
@[simp] theorem State.onDelivery_relink (s : State) (f : DeliveryUnit → DeliveryUnit) : (s.onDelivery f).relink = s.relink := rfl
@[simp] theorem State.onDelivery_line (s : State) (f : DeliveryUnit → DeliveryUnit) : (s.onDelivery f).line = s.line := rfl
@[simp] theorem State.onDelivery_switch (s : State) (f : DeliveryUnit → DeliveryUnit) : (s.onDelivery f).switch = s.switch := rfl
@[simp] theorem State.onDelivery_units (s : State) (f : DeliveryUnit → DeliveryUnit) : (s.onDelivery f).units = s.units := rfl
@[simp] theorem State.onDelivery_delivery (s : State) (f : DeliveryUnit → DeliveryUnit) : (s.onDelivery f).delivery = f s.delivery := rfl
@[simp] theorem State.onDelivery_port (s : State) (f : DeliveryUnit → DeliveryUnit) : (s.onDelivery f).port = s.port := rfl
@[simp] theorem State.onDelivery_cardSlot (s : State) (f : DeliveryUnit → DeliveryUnit) : (s.onDelivery f).cardSlot = s.cardSlot := rfl
@[simp] theorem State.onDelivery_now (s : State) (f : DeliveryUnit → DeliveryUnit) : (s.onDelivery f).now = s.now := rfl
@[simp] theorem State.onDelivery_freeCount (s : State) (f : DeliveryUnit → DeliveryUnit) : (s.onDelivery f).freeCount = s.freeCount := rfl
@[simp] theorem State.onDelivery_pending (s : State) (f : DeliveryUnit → DeliveryUnit) : (s.onDelivery f).pending = s.pending := rfl
@[simp] theorem State.onDelivery_entry (s : State) (f : DeliveryUnit → DeliveryUnit) (j : Index) : (s.onDelivery f).entry j = s.entry j := rfl
@[simp] theorem State.onDelivery_running (s : State) (f : DeliveryUnit → DeliveryUnit) : (s.onDelivery f).running = s.running := rfl
@[simp] theorem State.onDelivery_active (s : State) (f : DeliveryUnit → DeliveryUnit) : (s.onDelivery f).active = s.active := rfl
@[simp] theorem State.onDelivery_settings (s : State) (f : DeliveryUnit → DeliveryUnit) : (s.onDelivery f).settings = s.settings := rfl

/-! ### `onPort` -/

@[simp] theorem State.onPort_table (s : State) (f : CardPort → CardPort) : (s.onPort f).table = s.table := rfl
@[simp] theorem State.onPort_supply (s : State) (f : CardPort → CardPort) : (s.onPort f).supply = s.supply := rfl
@[simp] theorem State.onPort_relink (s : State) (f : CardPort → CardPort) : (s.onPort f).relink = s.relink := rfl
@[simp] theorem State.onPort_line (s : State) (f : CardPort → CardPort) : (s.onPort f).line = s.line := rfl
@[simp] theorem State.onPort_switch (s : State) (f : CardPort → CardPort) : (s.onPort f).switch = s.switch := rfl
@[simp] theorem State.onPort_units (s : State) (f : CardPort → CardPort) : (s.onPort f).units = s.units := rfl
@[simp] theorem State.onPort_delivery (s : State) (f : CardPort → CardPort) : (s.onPort f).delivery = s.delivery := rfl
@[simp] theorem State.onPort_port (s : State) (f : CardPort → CardPort) : (s.onPort f).port = f s.port := rfl
@[simp] theorem State.onPort_cardSlot (s : State) (f : CardPort → CardPort) : (s.onPort f).cardSlot = s.cardSlot := rfl
@[simp] theorem State.onPort_now (s : State) (f : CardPort → CardPort) : (s.onPort f).now = s.now := rfl
@[simp] theorem State.onPort_freeCount (s : State) (f : CardPort → CardPort) : (s.onPort f).freeCount = s.freeCount := rfl
@[simp] theorem State.onPort_pending (s : State) (f : CardPort → CardPort) : (s.onPort f).pending = s.pending := rfl
@[simp] theorem State.onPort_entry (s : State) (f : CardPort → CardPort) (j : Index) : (s.onPort f).entry j = s.entry j := rfl
@[simp] theorem State.onPort_running (s : State) (f : CardPort → CardPort) : (s.onPort f).running = s.running := rfl

/-! ### `setUnits` -/

@[simp] theorem State.setUnits_table (s : State) (us : List QueuedUnit) : (s.setUnits us).table = s.table := rfl
@[simp] theorem State.setUnits_supply (s : State) (us : List QueuedUnit) : (s.setUnits us).supply = s.supply := rfl
@[simp] theorem State.setUnits_relink (s : State) (us : List QueuedUnit) : (s.setUnits us).relink = s.relink := rfl
@[simp] theorem State.setUnits_line (s : State) (us : List QueuedUnit) : (s.setUnits us).line = s.line := rfl
@[simp] theorem State.setUnits_switch (s : State) (us : List QueuedUnit) : (s.setUnits us).switch = s.switch := rfl
@[simp] theorem State.setUnits_units (s : State) (us : List QueuedUnit) : (s.setUnits us).units = us := rfl
@[simp] theorem State.setUnits_delivery (s : State) (us : List QueuedUnit) : (s.setUnits us).delivery = s.delivery := rfl
@[simp] theorem State.setUnits_port (s : State) (us : List QueuedUnit) : (s.setUnits us).port = s.port := rfl
@[simp] theorem State.setUnits_cardSlot (s : State) (us : List QueuedUnit) : (s.setUnits us).cardSlot = s.cardSlot := rfl
@[simp] theorem State.setUnits_now (s : State) (us : List QueuedUnit) : (s.setUnits us).now = s.now := rfl
@[simp] theorem State.setUnits_freeCount (s : State) (us : List QueuedUnit) : (s.setUnits us).freeCount = s.freeCount := rfl
@[simp] theorem State.setUnits_pending (s : State) (us : List QueuedUnit) : (s.setUnits us).pending = s.pending := rfl
@[simp] theorem State.setUnits_entry (s : State) (us : List QueuedUnit) (j : Index) : (s.setUnits us).entry j = s.entry j := rfl
@[simp] theorem State.setUnits_running (s : State) (us : List QueuedUnit) : (s.setUnits us).running = s.running := rfl
@[simp] theorem State.setUnits_active (s : State) (us : List QueuedUnit) : (s.setUnits us).active = s.active := rfl
@[simp] theorem State.setUnits_settings (s : State) (us : List QueuedUnit) : (s.setUnits us).settings = s.settings := rfl

/-! ### `setNow` -/

@[simp] theorem State.setNow_table (s : State) (n : Nat) : (s.setNow n).table = s.table := rfl
@[simp] theorem State.setNow_supply (s : State) (n : Nat) : (s.setNow n).supply = s.supply := rfl
@[simp] theorem State.setNow_relink (s : State) (n : Nat) : (s.setNow n).relink = s.relink := rfl
@[simp] theorem State.setNow_line (s : State) (n : Nat) : (s.setNow n).line = s.line := rfl
@[simp] theorem State.setNow_switch (s : State) (n : Nat) : (s.setNow n).switch = s.switch := rfl
@[simp] theorem State.setNow_units (s : State) (n : Nat) : (s.setNow n).units = s.units := rfl
@[simp] theorem State.setNow_delivery (s : State) (n : Nat) : (s.setNow n).delivery = s.delivery := rfl
@[simp] theorem State.setNow_port (s : State) (n : Nat) : (s.setNow n).port = s.port := rfl
@[simp] theorem State.setNow_cardSlot (s : State) (n : Nat) : (s.setNow n).cardSlot = s.cardSlot := rfl
@[simp] theorem State.setNow_now (s : State) (n : Nat) : (s.setNow n).now = n := rfl
@[simp] theorem State.setNow_freeCount (s : State) (n : Nat) : (s.setNow n).freeCount = s.freeCount := rfl
@[simp] theorem State.setNow_pending (s : State) (n : Nat) : (s.setNow n).pending = s.pending := rfl
@[simp] theorem State.setNow_entry (s : State) (n : Nat) (j : Index) : (s.setNow n).entry j = s.entry j := rfl
@[simp] theorem State.setNow_running (s : State) (n : Nat) : (s.setNow n).running = s.running := rfl
@[simp] theorem State.setNow_active (s : State) (n : Nat) : (s.setNow n).active = s.active := rfl
@[simp] theorem State.setNow_settings (s : State) (n : Nat) : (s.setNow n).settings = s.settings := rfl

/-! ### `onEntry` and the entry at an index -/

theorem State.onEntry_eq (s : State) (i : Index) (f : Entry → Entry) :
    s.onEntry i f = s.setEntry i (f (s.entry i)) := rfl

@[simp] theorem State.onEntry_table (s : State) (i : Index) (f : Entry → Entry) : (s.onEntry i f).table = s.table.set i (f (s.entry i)) := rfl
@[simp] theorem State.onEntry_supply (s : State) (i : Index) (f : Entry → Entry) : (s.onEntry i f).supply = s.supply := rfl
@[simp] theorem State.onEntry_relink (s : State) (i : Index) (f : Entry → Entry) : (s.onEntry i f).relink = s.relink := rfl
@[simp] theorem State.onEntry_line (s : State) (i : Index) (f : Entry → Entry) : (s.onEntry i f).line = s.line := rfl
@[simp] theorem State.onEntry_switch (s : State) (i : Index) (f : Entry → Entry) : (s.onEntry i f).switch = s.switch := rfl
@[simp] theorem State.onEntry_units (s : State) (i : Index) (f : Entry → Entry) : (s.onEntry i f).units = s.units := rfl
@[simp] theorem State.onEntry_delivery (s : State) (i : Index) (f : Entry → Entry) : (s.onEntry i f).delivery = s.delivery := rfl
@[simp] theorem State.onEntry_port (s : State) (i : Index) (f : Entry → Entry) : (s.onEntry i f).port = s.port := rfl
@[simp] theorem State.onEntry_cardSlot (s : State) (i : Index) (f : Entry → Entry) : (s.onEntry i f).cardSlot = s.cardSlot := rfl
@[simp] theorem State.onEntry_now (s : State) (i : Index) (f : Entry → Entry) : (s.onEntry i f).now = s.now := rfl
@[simp] theorem State.onEntry_freeCount (s : State) (i : Index) (f : Entry → Entry) : (s.onEntry i f).freeCount = s.freeCount := rfl
@[simp] theorem State.onEntry_pending (s : State) (i : Index) (f : Entry → Entry) : (s.onEntry i f).pending = s.pending := rfl
@[simp] theorem State.onEntry_running (s : State) (i : Index) (f : Entry → Entry) : (s.onEntry i f).running = s.running := rfl
@[simp] theorem State.onEntry_active (s : State) (i : Index) (f : Entry → Entry) : (s.onEntry i f).active = s.active := rfl
@[simp] theorem State.onEntry_settings (s : State) (i : Index) (f : Entry → Entry) : (s.onEntry i f).settings = s.settings := rfl

@[simp] theorem State.setEntry_entry_self (s : State) (i : Index) (e : Entry) : (s.setEntry i e).entry i = e := by
  simp [State.entry, State.setEntry]

theorem State.setEntry_entry_other (s : State) {i j : Index} (e : Entry) (h : i ≠ j) :
    (s.setEntry i e).entry j = s.entry j := by
  have h' : i.val ≠ j.val := fun hv => h (Fin.ext hv)
  simp [State.entry, State.setEntry, h']

theorem State.setEntry_entry (s : State) (i j : Index) (e : Entry) :
    (s.setEntry i e).entry j = if i = j then e else s.entry j := by
  by_cases h : i = j
  · subst h; simp
  · simp [h, State.setEntry_entry_other s e h]

@[simp] theorem State.onEntry_entry_self (s : State) (i : Index) (f : Entry → Entry) :
    (s.onEntry i f).entry i = f (s.entry i) := by
  simp [State.onEntry]

theorem State.onEntry_entry_other (s : State) {i j : Index} (f : Entry → Entry) (h : i ≠ j) :
    (s.onEntry i f).entry j = s.entry j :=
  State.setEntry_entry_other s _ h

theorem State.onEntry_entry (s : State) (i j : Index) (f : Entry → Entry) :
    (s.onEntry i f).entry j = if i = j then f (s.entry i) else s.entry j :=
  State.setEntry_entry s i j _

/-- The entry at an index of a table written at another or the same index. -/
theorem entry_of_table_set (s t : State) (i j : Index) (e : Entry) (h : t.table = s.table.set i e) :
    t.entry j = if i = j then e else s.entry j := by
  have h2 : t.entry j = (s.setEntry i e).entry j := by simp only [State.entry, h, State.setEntry]
  rw [h2, State.setEntry_entry]

/-! ### `eachEntry`: a pass over the table -/

/-- What a pass keeps, if each of its steps keeps it. -/
theorem State.eachEntry_induct (P : State → Prop) (f : Index → State → State) (s : State) (h0 : P s)
    (hf : ∀ i t, P t → P (f i t)) : P (s.eachEntry f) := by
  unfold State.eachEntry
  generalize List.finRange 64 = l
  induction l generalizing s with
  | nil => exact h0
  | cons i l ih => exact ih _ (hf i s h0)

/-- What a pass does to each entry, if its step at an index reads and writes that entry alone: `g` is that
step's effect, and `K` what every step keeps and may rely on. -/
theorem State.eachEntry_entry (K : State → Prop) (f : Index → State → State) (g : Index → Entry → Entry)
    (s : State) (h0 : K s) (hK : ∀ i t, K t → K (f i t))
    (hself : ∀ i t, K t → (f i t).entry i = g i (t.entry i))
    (hother : ∀ i j t, K t → i ≠ j → (f i t).entry j = t.entry j) (j : Index) :
    (s.eachEntry f).entry j = g j (s.entry j) := by
  unfold State.eachEntry
  have key : ∀ (l : List Index), l.Nodup → ∀ t, K t →
      (l.foldl (fun s i => f i s) t).entry j = if j ∈ l then g j (t.entry j) else t.entry j := by
    intro l
    induction l with
    | nil => intro _ t _; simp
    | cons i l ih =>
      intro hn t ht
      rw [List.foldl_cons, ih (List.nodup_cons.1 hn).2 _ (hK i t ht)]
      by_cases hij : i = j
      · subst hij
        simp [(List.nodup_cons.1 hn).1, hself i t ht]
      · simp [Ne.symm hij, hother i j t ht hij]
  simpa using key (List.finRange 64) (List.nodup_finRange 64) s h0

end Sys2Proof.Machine
end

