-- ==== Sys2Proof/Laws/Ops.lean ====
section
/-! SUPPORT. One lemma for each shared operation of Machine/Ops.lean that says once all it does: the closed
forms of Safety.lean for posting, discarding and the moves of an entry, and the inversion of searches. -/

namespace Sys2Proof.Machine

/-! ### Notices -/

/-- One notice posted. -/
theorem State.post_eq (s : State) (n : Notice) : s.post n = { s with port := s.port.posted [n] } := by
  unfold State.post CardPort.posted
  split
  · next h =>
    have h1 : ¬ (Config.noticePlaces - s.port.notices.length < 1) := by omega
    have h2 : [n].take (Config.noticePlaces - s.port.notices.length) = [n] :=
      List.take_of_length_le (by simp; omega)
    simp [State.onPort, h1, h2]
  · next h =>
    have h1 : Config.noticePlaces - s.port.notices.length = 0 := by omega
    simp [State.onPort, h1]

@[simp] theorem CardPort.posted_nil (p : CardPort) : p.posted [] = p := by simp [CardPort.posted]

/-- Notices posted one after the other are posted together. -/
theorem CardPort.posted_append (p : CardPort) (xs ys : List Notice) :
    (p.posted xs).posted ys = p.posted (xs ++ ys) := by
  unfold CardPort.posted
  simp only [CardPort.mk.injEq, true_and, and_true, List.length_append, List.length_take, List.append_assoc]
  by_cases h : Config.noticePlaces - p.notices.length ≤ xs.length
  · have h0 : Config.noticePlaces - (p.notices.length
        + min (Config.noticePlaces - p.notices.length) xs.length) = 0 := by omega
    rw [h0]
    refine ⟨by simp [List.take_append_of_le_length h], ?_⟩
    by_cases hy : ys = []
    · simp [hy]
    · have h1 : 0 < ys.length := List.length_pos_iff.2 hy
      have h2 : Config.noticePlaces - p.notices.length < xs.length + ys.length := by omega
      simp [h1, h2]
  · have h0 : Config.noticePlaces - (p.notices.length
        + min (Config.noticePlaces - p.notices.length) xs.length)
          = Config.noticePlaces - p.notices.length - xs.length := by omega
    have h1 : ¬ (Config.noticePlaces - p.notices.length < xs.length) := by omega
    rw [h0]
    refine ⟨by rw [List.take_append], ?_⟩
    simp only [h1, decide_false, Bool.or_false]
    congr 1
    exact decide_eq_decide.2 (by omega)

@[simp] theorem CardPort.posted_mode (p : CardPort) (ns) : (p.posted ns).mode = p.mode := rfl
@[simp] theorem CardPort.posted_settings (p : CardPort) (ns) : (p.posted ns).settings = p.settings := rfl
@[simp] theorem CardPort.posted_params (p : CardPort) (ns) : (p.posted ns).params = p.params := rfl
@[simp] theorem CardPort.posted_results (p : CardPort) (ns) : (p.posted ns).results = p.results := rfl
@[simp] theorem CardPort.posted_resultPos (p : CardPort) (ns) : (p.posted ns).resultPos = p.resultPos := rfl
@[simp] theorem CardPort.posted_noticeBuffer (p : CardPort) (ns) : (p.posted ns).noticeBuffer = p.noticeBuffer := rfl
@[simp] theorem CardPort.posted_noticePos (p : CardPort) (ns) : (p.posted ns).noticePos = p.noticePos := rfl
@[simp] theorem CardPort.posted_latch (p : CardPort) (ns) : (p.posted ns).latch = p.latch := rfl
@[simp] theorem CardPort.posted_latchPending (p : CardPort) (ns) : (p.posted ns).latchPending = p.latchPending := rfl
@[simp] theorem CardPort.posted_mask (p : CardPort) (ns) : (p.posted ns).mask = p.mask := rfl
@[simp] theorem CardPort.posted_crstLow (p : CardPort) (ns) : (p.posted ns).crstLow = p.crstLow := rfl

/-- The Notice Queue never passes 32 records by posting. -/
theorem CardPort.posted_length (p : CardPort) (ns : List Notice) (h : p.notices.length ≤ Config.noticePlaces) :
    (p.posted ns).notices.length ≤ Config.noticePlaces := by
  simp only [CardPort.posted, List.length_append, List.length_take]
  omega

/-- The latch takes the live values (R178). -/
theorem State.latchChanges_eq (s : State) : s.latchChanges = { s with port := s.port.latching s.live } := by
  unfold State.latchChanges CardPort.latching
  split <;> (try split) <;> simp_all

/-- A command's answer (R167). -/
theorem State.leaveResult_eq (s : State) (bytes : List Byte) :
    s.leaveResult bytes = { s with port := s.port.answered bytes } := rfl

/-! ### Units, drive, timer, check -/

theorem discard_any (s : State) (i : Index) :
    (s.units.filter fun u => u.entry == i).length = 0 ↔ (s.units.any fun u => u.entry == i) = false := by
  simp [List.length_eq_zero_iff, List.filter_eq_nil_iff]

/-- A discard request (R16). -/
theorem State.discardUnits_eq (s : State) (i : Index) :
    s.discardUnits i =
      { s with units := s.units.filter fun u => u.entry != i, port := s.port.posted (s.discardNotices i) } := by
  unfold State.discardUnits State.discardNotices
  by_cases h : (s.units.any fun u => u.entry == i) = false
  · have hf : (s.units.filter fun u => u.entry != i) = s.units := by
      rw [List.filter_eq_self]
      intro u hu
      simp only [List.any_eq_false] at h
      simpa [bne] using h u hu
    simp [(discard_any s i).2 h, h, hf]
  · have h1 : (s.units.filter fun u => u.entry == i).length ≠ 0 := fun h2 => h ((discard_any s i).1 h2)
    have h2 : (s.units.any fun u => u.entry == i) = true := by simpa using h
    simp only [h1, if_false, h2, if_true, State.post_eq]
    rfl

/-- The drive of an entry ends (R124). -/
theorem State.stopDrive_eq (s : State) (i : Index) :
    s.stopDrive i = { s with switch := { s.switch with inbound := s.inboundWithout i } } := by
  unfold State.stopDrive State.inboundWithout
  split <;> rfl

/-- The answer wait of an entry ends (R95). -/
theorem State.stopAnswerTimer_eq (s : State) (i : Index) :
    s.stopAnswerTimer i = { s with relink := { s.relink with answerTimer := s.timerWithout i } } := by
  unfold State.stopAnswerTimer State.timerWithout
  split <;> rfl

/-! ### The moves of an entry -/

/-- A move into FAILED (R15, R16, R82). -/
theorem State.moveToFailed_eq (s : State) (i : Index) (reason : FailReason) (far : Option FarReason) :
    s.moveToFailed i reason far = s.failedAs i reason far := by
  unfold State.moveToFailed State.failedAs
  rw [State.stopAnswerTimer_eq, State.stopDrive_eq]
  simp only [State.post_eq, State.discardUnits_eq, CardPort.posted_append, List.singleton_append]
  by_cases h : s.relink.campaign = .steady
  · rw [if_pos h]; exact if_pos h
  · rw [if_neg h]; exact if_neg h

/-- A move into PENDING (R17, R74, R75, R80). -/
theorem State.moveToPending_eq (s : State) (i : Index) (misses : Nat) :
    s.moveToPending i misses = s.pendingAs i misses := by
  unfold State.moveToPending State.pendingAs State.beginForEntry State.beginCampaign
  simp only [State.post_eq, State.stopAnswerTimer_eq, State.stopDrive_eq]
  by_cases h : s.relink.campaign = .steady
  · rw [if_pos h, if_pos h, if_pos h]
    have hd : (s.begunForEntry).campaign = .contend := rfl
    simp only [State.onEntry, State.setEntry, State.onSwitch, State.onRelink, State.pendingDeadline, h]
    simp only [ne_eq, reduceCtorEq, not_false_eq_true, and_true]
    rfl
  · rw [if_neg h, if_neg h, if_neg h]
    have hd : s.relink.campaign ≠ .gather ↔ s.relink.campaign = .contend := by
      cases hc : s.relink.campaign <;> simp_all
    simp only [State.onEntry, State.setEntry, State.onSwitch, State.pendingDeadline, hd]
    rfl

/-- The entry goes LIVE with CONNECTED (R101, R111, R127). -/
theorem State.connect_eq (s : State) (i : Index) : s.connect i = s.connectedAs i := by
  unfold State.connect State.connectedAs
  rw [State.post_eq]
  rfl

/-! ### The settle check (R81) -/

theorem State.anyRelinking_eq_false (s : State) :
    s.anyRelinking = false ↔ ∀ i : Index, (s.entry i).state.relinking = false := by
  simp [State.anyRelinking, List.any_eq_false]

theorem State.anyRelinking_eq_true (s : State) :
    s.anyRelinking = true ↔ ∃ i : Index, (s.entry i).state.relinking = true := by
  simp [State.anyRelinking, List.any_eq_true]

/-- The move to STEADY is made exactly where both conditions of R81 hold. -/
theorem State.endIfSettled_settles (s : State) : Settles s s.endIfSettled := by
  unfold Settles State.endIfSettled State.settled
  refine ⟨fun h => ?_, fun h => if_neg fun h2 => h ⟨h2.1, h2.2.1, s.anyRelinking_eq_false.1 h2.2.2⟩⟩
  rw [if_pos ⟨h.1, h.2.1, s.anyRelinking_eq_false.2 h.2.2⟩, State.post_eq]
  rfl

theorem State.endIfSettled_of_settled (s : State) (h : s.settled) : s.endIfSettled = s.endedAs :=
  (s.endIfSettled_settles).1 h

theorem State.endIfSettled_of_not (s : State) (h : ¬ s.settled) : s.endIfSettled = s :=
  (s.endIfSettled_settles).2 h

/-- `Settles` says what the state after is. -/
theorem Settles.eq {s t : State} (h : Settles s t) : t = s.endIfSettled := by
  by_cases hs : s.settled
  · rw [h.1 hs, s.endIfSettled_of_settled hs]
  · rw [h.2 hs, s.endIfSettled_of_not hs]

/-! ### Searches -/

/-- A found entry has the property, and no lower index has it. -/
theorem State.findEntry_some (s : State) (p : Entry → Bool) {i : Index} (h : s.findEntry p = some i) :
    p (s.entry i) = true := by
  simpa using List.find?_some h

/-- Where none is found, none has the property. -/
theorem State.findEntry_none (s : State) (p : Entry → Bool) :
    s.findEntry p = none ↔ ∀ i : Index, p (s.entry i) = false := by
  simp [State.findEntry, List.find?_eq_none]

/-- Where at most one entry has the property, it is the one found. -/
theorem State.findEntry_unique (s : State) (p : Entry → Bool) (i : Index) (hi : p (s.entry i) = true)
    (hu : ∀ j, p (s.entry j) = true → j = i) : s.findEntry p = some i := by
  cases h : s.findEntry p with
  | none => simp [(s.findEntry_none p).1 h i] at hi
  | some j => rw [hu j (s.findEntry_some p h)]

/-! ### The lists -/

/-- Queueing an answer keeps the Answer List within 64 items (R103). -/
theorem queueAnswerItem_length (l : List AnswerItem) (a : AnswerItem) (h : l.length ≤ Config.listPlaces) :
    (queueAnswerItem l a).length ≤ Config.listPlaces := by
  unfold queueAnswerItem
  split
  · simpa using h
  · split
    · simp only [List.length_append, List.length_singleton]; omega
    · exact h

/-- Every item of the Answer List after queueing is the new one or was there before (R103). -/
theorem mem_queueAnswerItem (l : List AnswerItem) (a b : AnswerItem) (h : b ∈ queueAnswerItem l a) :
    b = a ∨ b ∈ l := by
  unfold queueAnswerItem at h
  split at h
  · obtain ⟨c, hc, rfl⟩ := List.mem_map.1 h
    split
    · exact .inl rfl
    · exact .inr hc
  · split at h
    · rcases List.mem_append.1 h with h | h
      · exact .inr h
      · exact .inl (by simpa using h)
    · exact .inr h

/-- What adding a DROP does: it is listed already, it joins the tail, or it is abandoned with a notice (R112). -/
theorem State.addDrop_cases (s : State) (circuit : Circuit) (far : CardSlot) (reason : DropReason) :
    (s.addDrop circuit far reason = s ∧ ∃ d ∈ s.relink.drops, d.circuit = circuit ∧ d.far = far)
    ∨ ((∀ d ∈ s.relink.drops, ¬ (d.circuit = circuit ∧ d.far = far))
      ∧ s.relink.drops.length < Config.listPlaces
      ∧ s.addDrop circuit far reason =
        { s with relink := { s.relink with drops := s.relink.drops ++ [⟨circuit, far, reason, 0⟩] } })
    ∨ ((∀ d ∈ s.relink.drops, ¬ (d.circuit = circuit ∧ d.far = far))
      ∧ Config.listPlaces ≤ s.relink.drops.length
      ∧ s.addDrop circuit far reason = { s with port := s.port.posted [undelivered circuit] }) := by
  unfold State.addDrop
  split
  · next h => exact .inl ⟨rfl, by simpa using h⟩
  · next h =>
    have hn : ∀ d ∈ s.relink.drops, ¬ (d.circuit = circuit ∧ d.far = far) := by simpa using h
    split
    · next hl => exact .inr (.inl ⟨hn, hl, rfl⟩)
    · next hl => exact .inr (.inr ⟨hn, by omega, State.post_eq _ _⟩)

/-! ### The Check Queue -/

@[simp] theorem SlotSwitch.fillOne_highway (b : Bool) (w : SlotSwitch) (k : Fin 4) :
    (w.fillOne b k).highway = w.highway := by
  unfold SlotSwitch.fillOne; split <;> rfl

@[simp] theorem SlotSwitch.fillOne_inbound (b : Bool) (w : SlotSwitch) (k : Fin 4) :
    (w.fillOne b k).inbound = w.inbound := by
  unfold SlotSwitch.fillOne; split <;> rfl

@[simp] theorem SlotSwitch.fillOne_outbound (b : Bool) (w : SlotSwitch) (k : Fin 4) :
    (w.fillOne b k).outbound = w.outbound := by
  unfold SlotSwitch.fillOne; split <;> rfl

@[simp] theorem SlotSwitch.fillOne_runCount (b : Bool) (w : SlotSwitch) (k : Fin 4) :
    (w.fillOne b k).runCount = w.runCount := by
  unfold SlotSwitch.fillOne; split <;> rfl

@[simp] theorem SlotSwitch.fillOne_missing (b : Bool) (w : SlotSwitch) (k : Fin 4) :
    (w.fillOne b k).missing = w.missing := by
  unfold SlotSwitch.fillOne; split <;> rfl

/-- Filling the checkers is the four takes in order. -/
theorem SlotSwitch.fill_eq (b : Bool) (w : SlotSwitch) :
    w.fill b = (((w.fillOne b 0).fillOne b 1).fillOne b 2).fillOne b 3 := rfl

@[simp] theorem SlotSwitch.fill_highway (b : Bool) (w : SlotSwitch) : (w.fill b).highway = w.highway := by
  simp [SlotSwitch.fill_eq]
@[simp] theorem SlotSwitch.fill_inbound (b : Bool) (w : SlotSwitch) : (w.fill b).inbound = w.inbound := by
  simp [SlotSwitch.fill_eq]
@[simp] theorem SlotSwitch.fill_outbound (b : Bool) (w : SlotSwitch) : (w.fill b).outbound = w.outbound := by
  simp [SlotSwitch.fill_eq]
@[simp] theorem SlotSwitch.fill_runCount (b : Bool) (w : SlotSwitch) : (w.fill b).runCount = w.runCount := by
  simp [SlotSwitch.fill_eq]
@[simp] theorem SlotSwitch.fill_missing (b : Bool) (w : SlotSwitch) : (w.fill b).missing = w.missing := by
  simp [SlotSwitch.fill_eq]

@[simp] theorem SlotSwitch.withdraw_highway (w : SlotSwitch) (i : Index) : (w.withdraw i).highway = w.highway := by
  simp [SlotSwitch.withdraw]
@[simp] theorem SlotSwitch.withdraw_inbound (w : SlotSwitch) (i : Index) : (w.withdraw i).inbound = w.inbound := by
  simp [SlotSwitch.withdraw]
@[simp] theorem SlotSwitch.withdraw_outbound (w : SlotSwitch) (i : Index) : (w.withdraw i).outbound = w.outbound := by
  simp [SlotSwitch.withdraw]
@[simp] theorem SlotSwitch.withdraw_runCount (w : SlotSwitch) (i : Index) : (w.withdraw i).runCount = w.runCount := by
  simp [SlotSwitch.withdraw]
@[simp] theorem SlotSwitch.withdraw_missing (w : SlotSwitch) (i : Index) : (w.withdraw i).missing = w.missing := by
  simp [SlotSwitch.withdraw]

/-- A check request (R125), by the highway. -/
theorem State.requestCheck_cases (s : State) (i : Index) :
    (s.switch.highway = .lost ∧ s.requestCheck i = s.checkCannotRun i)
    ∨ (s.switch.highway = .present ∧ s.switch.checking i = true ∧ s.requestCheck i = s)
    ∨ (s.switch.highway = .present ∧ s.switch.checking i = false ∧ s.requestCheck i =
        { s with switch := SlotSwitch.fill false { s.switch with checkQueue := s.switch.checkQueue ++ [i] } }) := by
  unfold State.requestCheck
  cases hw : s.switch.highway with
  | lost => exact .inl ⟨rfl, rfl⟩
  | present =>
    cases hc : s.switch.checking i with
    | true => exact .inr (.inl ⟨rfl, rfl, by simp⟩)
    | false => exact .inr (.inr ⟨rfl, rfl, by simp [State.onSwitch]⟩)

/-- The answers of an entry leave the list, and no REFUSE-UNKNOWN item (R105). -/
theorem State.removeAnswer_eq (s : State) (i : Index) : s.removeAnswer i = s.unanswered i := rfl

/-- Every REFUSE-UNKNOWN item stays, and every item that stays was there (R105). -/
theorem State.mem_unanswered (s : State) (i : Index) (a : AnswerItem) :
    a ∈ (s.unanswered i).relink.answers ↔ a ∈ s.relink.answers
      ∧ (a.circuit = (s.entry i).circuit → a.origin = (s.entry i).farSlot → a.verdict = .refuseUnknown) := by
  simp only [State.unanswered, List.mem_filter, Bool.not_eq_true', Bool.and_eq_false_iff, beq_eq_false_iff_ne,
    bne_eq_false_iff_eq, ne_eq]
  tauto

/-- An entry returns to EMPTY, and the frame on the line loses it as its owner (R11, R12, R13). -/
theorem State.emptyEntry_eq (s : State) (i : Index) :
    s.emptyEntry i = { s with table := s.table.set i Entry.cleared, line := s.lineWithout i } := by
  have h : s.line.forget i = s.lineWithout i := by
    unfold ShelfLine.forget State.lineWithout
    congr 2
    funext f
    split <;> rfl
  show { s with table := s.table.set i Entry.cleared, line := s.line.forget i } = _
  rw [h]

/-! ### The receiver -/

/-- What one bit time counts (R51, R55). -/
theorem ShelfLine.countBit_eq (l : ShelfLine) (bit : Bool) : l.countBit bit =
    { l with
      gap := if bit = true then min (l.gap + 1) 11 else 0
      dominant := if bit = true then 0 else min (l.dominant + 1) 2001
      stuck := if bit = true then l.stuck && decide (l.gap < 10) else l.stuck || decide (2000 < l.dominant + 1) } := by
  have h : (min (l.gap + 1) 11 != 11) = decide (l.gap < 10) := by
    rw [Bool.eq_iff_iff]; simp only [bne_iff_ne, decide_eq_true_eq]; omega
  cases bit
  · simp [ShelfLine.countBit, Config.stuckBits]
  · simp [ShelfLine.countBit, Config.startGap, h]

/-- The frame in the buffer is the one an outcome ends, in RUN and where its phase allows that outcome (R65, R66). -/
theorem State.ending_eq (s : State) (o : SendOutcome) (f : TxFrame) (h : s.running = true) (hb : s.line.buffer = some f) :
    s.ending o = if SendOutcome.fits o f.phase = true then some f else none := by
  unfold State.ending
  rw [if_pos h, hb, Option.filter_some]

/-- What `State.withdraw` leaves in RUN (R55, R61, R66, R67; log entry 32). -/
theorem State.withdraw_eq (s : State) (h : s.running = true) : s.withdraw = s.yielded := by
  unfold State.withdraw State.yielded
  cases hb : s.line.buffer with
  | none => simp [State.ending, hb]
  | some f =>
    rw [State.ending_eq s .lost f h hb]
    by_cases hp : f.phase = .receipt
    · simp [SendOutcome.fits, hp]
    · have hf : SendOutcome.fits .lost f.phase = true := by simp [SendOutcome.fits, hp]
      rw [if_pos hf]
      dsimp only
      rw [if_neg hp]
      split <;> rename_i hx <;> simp [hx, State.onLine, ShelfLine.endSend, State.unmarkUnits, State.setUnits]

/-- A frame that yields leaves the rest of the part as it was. -/
theorem State.yielded_rest (s : State) :
    s.yielded = { s with
      line := { s.line with buffer := s.yielded.line.buffer, drive := s.yielded.line.drive }
      units := s.yielded.units } := by
  unfold State.yielded
  split
  · rfl
  · split <;> rfl

/-- The start bit of a frame heard, at an offer point (R55, R62). -/
theorem ShelfLine.startHeard_eq (l : ShelfLine) : l.startHeard =
    { l with receiver := .receiving, gap := 0, dominant := 1, stuck := false, receipt := none, closing := none } := rfl

/-- The line once the observer has a frame heard (R62, R63, R64). -/
theorem ShelfLine.hearFrame_eq (l : ShelfLine) (f : Frame) : l.hearFrame f = l.heard f := by
  unfold ShelfLine.hearFrame ShelfLine.heard
  split <;> rfl

/-- A receipt given (R64). -/
theorem State.giveReceipt_eq (s : State) (f : Frame) (r : Option Receipt) : s.giveReceipt f r = s.receipted f r := by
  unfold State.giveReceipt State.receipted
  rw [State.latchChanges_eq]
  rfl

/-- A fault in a frame of another station (R53, R57, R59). -/
theorem State.toHunt_eq (s : State) (gap run : Nat) (h : s.running = true) : s.toHunt gap run = s.hunting gap run := by
  unfold State.toHunt State.hunting
  rw [State.withdraw_eq s h, State.latchChanges_eq, State.yielded_rest]
  rfl

/-- The start bit of a frame of this station, at an offer point (R62, R65). -/
theorem ShelfLine.atOffer_start (l : ShelfLine) : l.atOffer.readBit false =
    { l with receiver := .receiving, gap := 0, dominant := 1, stuck := false, receipt := none, closing := none } := rfl

/-! ### The end of a frame of this station -/

/-- What `ShelfLine.endSend` leaves, in the words of `State.sendEnded`. -/
theorem State.onLine_endSend (s : State) (o : SendOutcome) : (s.onLine fun l => l.endSend o) = s.sendEnded o := by
  cases o <;> rfl

end Sys2Proof.Machine
end

