-- ==== Sys2Proof/Laws/Highway.lean ====
section
/-! SUPPORT. One lemma for the passing of highway slots (Machine/Highway.lean) that says once all it does, in the
words of `SlotsPass` (Safety.lean), and the parts it is made of. -/

namespace Sys2Proof.Machine

/-- The entries that copy a highway slot into a line channel (R123). -/
def State.copiesInto (s : State) (n : Byte) (c : Fin 64) (l : List Index) : Prop :=
  ∃ i ∈ l, (s.drives i = true ∧ (s.entry i).rxSlot = n) ∧ (s.entry i).channel.toFin = c

open Classical in
/-- The end of a highway slot writes its byte into the channels of the driven entries whose rx slot it is, and does
nothing else (R123). -/
theorem State.copySlot_eq (s : State) (n b : Byte) :
    ∃ inbound, s.copySlot n b = { s with switch := { s.switch with inbound := inbound } }
      ∧ ∀ c : Fin 64, inbound[c] = if s.copiesInto n c (List.finRange 64) then b else s.switch.inbound[c] := by
  suffices h : ∀ (l : List Index) (t : State), ∃ inbound,
      l.foldl (fun t i =>
        if s.drives i = true ∧ (s.entry i).rxSlot = n then
          t.onSwitch fun w => { w with inbound := w.inbound.set (s.entry i).channel.toFin b }
        else t) t = { t with switch := { t.switch with inbound := inbound } }
      ∧ ∀ c : Fin 64, inbound[c] = if s.copiesInto n c l then b else t.switch.inbound[c] from h _ s
  intro l
  induction l with
  | nil => exact fun t => ⟨t.switch.inbound, rfl, fun c => by simp [State.copiesInto]⟩
  | cons i l ih =>
    intro t
    by_cases hi : s.drives i = true ∧ (s.entry i).rxSlot = n
    · obtain ⟨inb, he, hc⟩ := ih (t.onSwitch fun w => { w with inbound := w.inbound.set (s.entry i).channel.toFin b })
      refine ⟨inb, by rw [List.foldl_cons, if_pos hi, he]; rfl, fun c => ?_⟩
      rw [hc c]
      by_cases hl : s.copiesInto n c l
      · have : s.copiesInto n c (i :: l) := by
          obtain ⟨j, hj, hp⟩ := hl
          exact ⟨j, List.mem_cons_of_mem _ hj, hp⟩
        rw [if_pos hl, if_pos this]
      · by_cases hic : (s.entry i).channel.toFin = c
        · have : s.copiesInto n c (i :: l) := ⟨i, by simp, hi, hic⟩
          rw [if_neg hl, if_pos this]
          subst hic
          simp [State.onSwitch]
        · have : ¬ s.copiesInto n c (i :: l) := by
            rintro ⟨j, hj, hp, hq⟩
            rcases List.mem_cons.1 hj with rfl | hj
            · exact hic hq
            · exact hl ⟨j, hj, hp, hq⟩
          rw [if_neg hl, if_neg this]
          have hv : ((s.entry i).channel.toFin : Fin 64).val ≠ c.val := fun h => hic (Fin.ext h)
          simp only [State.onSwitch_switch, Fin.getElem_fin]
          exact Vector.getElem_set_ne _ _ hv
    · obtain ⟨inb, he, hc⟩ := ih t
      refine ⟨inb, by rw [List.foldl_cons, if_neg hi, he], fun c => ?_⟩
      rw [hc c]
      have : s.copiesInto n c (i :: l) ↔ s.copiesInto n c l := by
        constructor
        · rintro ⟨j, hj, hp, hq⟩
          rcases List.mem_cons.1 hj with rfl | hj
          · exact absurd hp hi
          · exact ⟨j, hj, hp, hq⟩
        · rintro ⟨j, hj, hp⟩
          exact ⟨j, List.mem_cons_of_mem _ hj, hp⟩
      simp only [this]

/-- While the highway is PRESENT in RUN, the driven entries are the LIVE ones (R123). -/
theorem State.drives_eq (s : State) (hr : s.running = true) (hp : s.switch.highway = .present) (i : Index) :
    s.drives i = ((s.entry i).state == .live) := by
  simp [State.drives, hr, hp]

/-- The samples that stand as a highway slot begins, those filled before it among them (R119). -/
theorem SlotSwitch.fillBefore_outbound (w : SlotSwitch) (f : HighwayFrame) (n : Byte) (c : Fin 64) :
    (w.fillBefore f n).outbound[c] = if f.fills[c].slot = n then f.fills[c].sample else w.outbound[c] := by
  simp [SlotSwitch.fillBefore, HighwayFrame.fillBefore]

@[simp] theorem SlotSwitch.fillBefore_highway (w : SlotSwitch) (f : HighwayFrame) (n : Byte) :
    (w.fillBefore f n).highway = w.highway := rfl
@[simp] theorem SlotSwitch.fillBefore_inbound (w : SlotSwitch) (f : HighwayFrame) (n : Byte) :
    (w.fillBefore f n).inbound = w.inbound := rfl
@[simp] theorem SlotSwitch.fillBefore_checkers (w : SlotSwitch) (f : HighwayFrame) (n : Byte) :
    (w.fillBefore f n).checkers = w.checkers := rfl
@[simp] theorem SlotSwitch.fillBefore_timing (w : SlotSwitch) (f : HighwayFrame) (n : Byte) :
    (w.fillBefore f n).timing = w.timing := rfl

/-- A fill before a highway slot and not before an earlier one (R119). -/
theorem fill_at (x n : Byte) : (n.toNat ≤ x.toNat ∧ x.toNat ≤ n.toNat) ↔ x = n := by
  rw [← BitVec.toNat_inj]; omega

/-- What HDO carries in the highway slot that passes next (R119, R123). -/
theorem State.hdoSample_fillBefore (s : State) (f : HighwayFrame) (n : Byte) (hr : s.running = true)
    (hp : s.switch.highway = .present) :
    (s.onSwitch fun w => w.fillBefore f n).hdoSample n =
      ((List.finRange 64).find? fun i => (s.entry i).state == .live && (s.entry i).txSlot == n).map fun i =>
        s.sampleAt f n.toNat n (s.entry i).channel := by
  unfold State.hdoSample
  have hd : (fun i => (s.onSwitch fun w => w.fillBefore f n).drives i
        && ((s.onSwitch fun w => w.fillBefore f n).entry i).txSlot == n)
      = fun i => (s.entry i).state == .live && (s.entry i).txSlot == n := by
    funext i
    have hr' : (s.onSwitch fun w => w.fillBefore f n).running = true := by rw [State.onSwitch_running, hr]
    have hp' : (s.onSwitch fun w => w.fillBefore f n).switch.highway = .present := by
      rw [State.onSwitch_switch, SlotSwitch.fillBefore_highway, hp]
    rw [State.drives_eq _ hr' hp' i, State.onSwitch_entry]
  rw [hd]
  refine Option.map_congr fun i _ => ?_
  have h := SlotSwitch.fillBefore_outbound s.switch f n (s.entry i).channel.toFin
  unfold State.sampleAt
  simp only [fill_at]
  exact h

/-- The byte on HDI in the highway slot that passes next, its samples filled in (R119, R123). -/
theorem State.hdiByte_eq (s : State) (f : HighwayFrame) (n : Byte) (hr : s.running = true)
    (hp : s.switch.highway = .present) :
    (s.onSwitch fun w => w.fillBefore f n).hdiByte f n = s.heardAt f n.toNat n := by
  unfold State.hdiByte State.heardAt
  rw [State.hdoSample_fillBefore s f n hr hp]
  generalize f.others[n.toFin] = o
  generalize ((List.finRange 64).find? fun i => (s.entry i).state == .live && (s.entry i).txSlot == n) = d
  cases o <;> cases d <;> rfl

/-- The byte on HDI in the highway slot that passes next (R119, R123). -/
theorem State.nextByte_eq (s : State) (f : HighwayFrame) (n : Byte) (hr : s.running = true)
    (hp : s.switch.highway = .present) : s.nextByte f n = s.heardAt f n.toNat n := s.hdiByte_eq f n hr hp

/-! ### Readings (R126) -/

/-- A checker that takes no reading in the slot leaves all as it is. -/
theorem State.readChecker_idle (s : State) (n b : Byte) (k : Fin 4)
    (h : ∀ x, s.switch.checkers[k] = some x → x.armed = true → (s.entry x.index).txSlot ≠ n) :
    s.readChecker n b k = s := by
  unfold State.readChecker
  cases hx : s.switch.checkers[k] with
  | none => rfl
  | some x => exact if_neg fun hh => h x hx hh.1 hh.2

/-- A checker once it has been passed by a slot whose reading, if it takes one, ends nothing (R126). -/
def State.counted (s : State) (n : Byte) (x : Checker) : Checker :=
  if x.armed = true ∧ (s.entry x.index).txSlot = n then { x with samples := x.samples + 1 } else x

/-- A checker whose reading ends nothing counts it. -/
theorem State.readChecker_quiet (s : State) (n b : Byte) (k : Fin 4)
    (h : ∀ x, s.switch.checkers[k] = some x → x.armed = true → (s.entry x.index).txSlot = n → x.result b = none) :
    s.readChecker n b k = { s with switch := { s.switch with
      checkers := s.switch.checkers.set k ((s.switch.checkers[k]).map (s.counted n)) } } := by
  have self : ∀ o, s.switch.checkers[k] = o →
      { s with switch := { s.switch with checkers := s.switch.checkers.set k o } } = s := by
    rintro o rfl
    simp
  unfold State.readChecker
  cases hx : s.switch.checkers[k] with
  | none => exact (self none hx).symm
  | some x =>
    simp only [Option.map_some, State.counted]
    by_cases hh : x.armed = true ∧ (s.entry x.index).txSlot = n
    · simp only [hh, and_self, if_true, h x hx hh.1 hh.2]
      rfl
    · simp only [hh, if_false]
      exact (self _ hx).symm

/-- Where no reading of the slot ends a check, the readings are counted and nothing else changes (R126). -/
theorem State.readSlot_quiet (s : State) (n b : Byte)
    (h : ∀ (k : Fin 4) x, s.switch.checkers[k] = some x → x.armed = true → (s.entry x.index).txSlot = n →
      x.result b = none) :
    s.readSlot n b = { s with switch := { s.switch with
      checkers := s.switch.checkers.map (Option.map (s.counted n)) } } := by
  obtain ⟨v, hv⟩ : ∃ v, v = s.switch.checkers := ⟨_, rfl⟩
  have step : ∀ (u : Vector (Option Checker) 4) (k : Fin 4), u[k] = v[k] →
      State.readChecker n b k { s with switch := { s.switch with checkers := u } } =
        { s with switch := { s.switch with checkers := u.set k ((v[k]).map (s.counted n)) } } := by
    intro u k hu
    have := State.readChecker_quiet { s with switch := { s.switch with checkers := u } } n b k
      (fun x hx => h k x (by rw [← hv, ← hu]; exact hx))
    rw [this]
    show { s with switch := { s.switch with checkers := u.set k (Option.map (s.counted n) u[k]) } } = _
    rw [hu]
  have four : ∀ (u : Vector (Option Checker) 4) (g : Option Checker → Option Checker),
      (((u.set 0 (g u[(0 : Fin 4)])).set 1 (g u[(1 : Fin 4)])).set 2 (g u[(2 : Fin 4)])).set 3 (g u[(3 : Fin 4)])
        = u.map g := by
    intro u g
    ext1 k hk
    have : k = 0 ∨ k = 1 ∨ k = 2 ∨ k = 3 := by omega
    rcases this with rfl | rfl | rfl | rfl <;> simp
  show State.readChecker n b 3 (State.readChecker n b 2 (State.readChecker n b 1 (State.readChecker n b 0 s))) = _
  have h0 := step v 0 rfl
  have hs : { s with switch := { s.switch with checkers := v } } = s := by rw [hv]
  rw [hs] at h0
  rw [h0, step _ 1 (by simp), step _ 2 (by simp), step _ 3 (by simp), ← hv]
  exact congrArg (fun u => { s with switch := { s.switch with checkers := u } }) (four v (Option.map (s.counted n)))

/-- Idle checkers that take heads read from the next frame, so a checker that reads is one that was there (R126). -/
theorem SlotSwitch.fill_armed (w : SlotSwitch) (k : Fin 4) (x : Checker) (h : (w.fill false).checkers[k] = some x)
    (ha : x.armed = true) : w.checkers[k] = some x := by
  have one : ∀ (u : SlotSwitch) (j : Fin 4), (u.fillOne false j).checkers[k] = some x → u.checkers[k] = some x := by
    intro u j hu
    unfold SlotSwitch.fillOne at hu
    split at hu
    · next hj _ =>
      by_cases hjk : j = k
      · subst hjk
        simp only [Fin.getElem_fin, Vector.getElem_set_self, Option.some.injEq] at hu
        rw [← hu] at ha
        cases ha
      · have : j.val ≠ k.val := fun hh => hjk (Fin.ext hh)
        simpa [Vector.getElem_set_ne _ _ this] using hu
    · exact hu
    · exact hu
  exact one _ 0 (one _ 1 (one _ 2 (one _ 3 h)))

/-- A checker that reads after a check has been withdrawn was there before, and is not that check's (R128). -/
theorem SlotSwitch.withdraw_armed (w : SlotSwitch) (i : Index) (k : Fin 4) (x : Checker)
    (h : (w.withdraw i).checkers[k] = some x) (ha : x.armed = true) : w.checkers[k] = some x := by
  have := SlotSwitch.fill_armed _ k x h ha
  simp only [Fin.getElem_fin, Vector.getElem_map, dropChecker] at this ⊢
  split at this
  · next c hc =>
    split at this
    · cases this
    · rw [hc] at this ⊢; exact this
  · cases this

/-- The part of the state that readings look at. -/
def State.readsAs (s t : State) : Prop :=
  (∀ i, (t.entry i).txSlot = (s.entry i).txSlot)
    ∧ ∀ (k : Fin 4) x, t.switch.checkers[k] = some x → x.armed = true → s.switch.checkers[k] = some x

theorem State.readsAs.trans {s t u : State} (h : s.readsAs t) (g : t.readsAs u) : s.readsAs u :=
  ⟨fun i => (g.1 i).trans (h.1 i), fun k x hx ha => h.2 k x (g.2 k x hx ha) ha⟩

theorem State.readsAs.of_eq {s t : State} (ht : t.table = s.table) (hw : t.switch.checkers = s.switch.checkers) :
    s.readsAs t :=
  ⟨fun i => by simp only [State.entry, ht], fun k x hx _ => by rw [← hw]; exact hx⟩

/-- An entry whose tx slot stands. -/
theorem State.readsAs.setEntry (s : State) (i : Index) (e : Entry) (he : e.txSlot = (s.entry i).txSlot) :
    s.readsAs (s.withEntry i e) := by
  refine ⟨fun j => ?_, fun _ _ hx _ => hx⟩
  by_cases hij : i = j
  · subst hij
    simp only [State.entry, State.withEntry] at he ⊢
    simpa using he
  · have : i.val ≠ j.val := fun h => hij (Fin.ext h)
    simp [State.entry, State.withEntry, Vector.getElem_set_ne _ _ this]

theorem State.readsAs.connectedAs (s : State) (i : Index) : s.readsAs (s.connectedAs i) :=
  (State.readsAs.setEntry s i { s.entry i with state := .live } rfl).trans (.of_eq rfl rfl)

theorem State.readsAs.failedAs (s : State) (i : Index) (r : FailReason) (f : Option FarReason) :
    s.readsAs (s.failedAs i r f) := by
  have h := State.readsAs.setEntry s i
    { s.entry i with state := .failed, failure := some ⟨r, f⟩, deadline := none } rfl
  exact ⟨h.1, fun k x hx ha => SlotSwitch.withdraw_armed { s.switch with inbound := s.inboundWithout i } i k x hx ha⟩

theorem State.readsAs.dropped (s : State) (c : Circuit) (f : CardSlot) (r : DropReason) :
    s.readsAs (s.dropped c f r) := by
  unfold State.dropped
  split
  · exact .of_eq rfl rfl
  · split <;> exact .of_eq rfl rfl

theorem State.readsAs.endIfSettled (s : State) : s.readsAs s.endIfSettled := by
  by_cases h : s.settled
  · rw [s.endIfSettled_of_settled h]; exact .of_eq rfl rfl
  · rw [s.endIfSettled_of_not h]; exact .of_eq rfl rfl

/-- A DROP added (R112). -/
theorem State.addDrop_eq (s : State) (c : Circuit) (f : CardSlot) (r : DropReason) :
    s.addDrop c f r = s.dropped c f r := by
  unfold State.dropped
  rcases s.addDrop_cases c f r with ⟨h, hd⟩ | ⟨hn, hl, h⟩ | ⟨hn, hl, h⟩
  · rw [h, if_pos hd]
  · have hn' : ¬ ∃ d ∈ s.relink.drops, d.circuit = c ∧ d.far = f := fun ⟨d, hd, hp⟩ => hn d hd hp
    have hl' : s.relink.drops.length < 64 := hl
    rw [h, if_neg hn', if_pos hl']
  · have hn' : ¬ ∃ d ∈ s.relink.drops, d.circuit = c ∧ d.far = f := fun ⟨d, hd, hp⟩ => hn d hd hp
    have hl' : ¬ s.relink.drops.length < 64 := Nat.not_lt.2 hl
    rw [h, if_neg hn', if_neg hl']
    rfl

/-- PASS (R127), by the entry's state. -/
theorem State.checkPass_eq (s : State) (i : Index) : s.checkPass i =
    match (s.entry i).state with
    | .checking => (s.connectedAs i).queued ((s.entry i).answer .match_)
    | .joining | .parked => s.connectedAs i
    | _ => s := by
  unfold State.checkPass
  rw [State.connect_eq]
  cases (s.entry i).state <;> rfl

/-- FAIL (R127), by the entry's state. -/
theorem State.checkFail_eq (s : State) (i : Index) : s.checkFail i =
    match (s.entry i).state with
    | .checking => (s.failedAs i .clash none).queued ((s.entry i).answer .refuseClash)
    | .joining | .parked => (s.failedAs i .clash none).dropped (s.entry i).circuit (s.entry i).farSlot .clash
    | _ => s := by
  unfold State.checkFail State.addDropFor
  have he : (s.failedAs i .clash none).entry i =
      { s.entry i with state := .failed, failure := some ⟨.clash, none⟩, deadline := none } := by
    simp [State.entry, State.failedAs]
  simp only [State.moveToFailed_eq, State.addDrop_eq, he]
  cases (s.entry i).state <;> rfl

/-- The end of a check changes no tx slot and gives no index to a checker that reads in this frame (R126). -/
theorem State.endCheck_readsAs (s : State) (k : Fin 4) (i : Index) (r : CheckResult) :
    { s with switch := { s.switch with checkers := s.switch.checkers.set k none } }.readsAs (s.endCheck k i r) := by
  generalize hb : { s with switch := { s.switch with checkers := s.switch.checkers.set k none } } = b
  have hr : b.readsAs (match r with | .pass => b.checkPass i | .fail => b.checkFail i) := by
    cases r with
    | pass =>
      show b.readsAs (b.checkPass i)
      rw [State.checkPass_eq]
      split
      · exact (State.readsAs.connectedAs b i).trans (.of_eq rfl rfl)
      · exact State.readsAs.connectedAs b i
      · exact State.readsAs.connectedAs b i
      · exact .of_eq rfl rfl
    | fail =>
      show b.readsAs (b.checkFail i)
      rw [State.checkFail_eq]
      split
      · exact (State.readsAs.failedAs b i .clash none).trans (.of_eq rfl rfl)
      · exact (State.readsAs.failedAs b i .clash none).trans (State.readsAs.dropped _ _ _ _)
      · exact (State.readsAs.failedAs b i .clash none).trans (State.readsAs.dropped _ _ _ _)
      · exact .of_eq rfl rfl
  have he : s.endCheck k i r =
      ((match r with | .pass => b.checkPass i | .fail => b.checkFail i).onSwitch fun w => w.fill false).endIfSettled := by
    rw [← hb]; rfl
  rw [he]
  refine (hr.trans ?_).trans (State.readsAs.endIfSettled _)
  generalize (match r with | .pass => b.checkPass i | .fail => b.checkFail i) = u
  exact ⟨fun _ => rfl, fun j x hx ha => SlotSwitch.fill_armed u.switch j x hx ha⟩

/-- The end of a check (R101, R111, R126, R127). -/
theorem State.endCheck_ends (s : State) (k : Fin 4) (i : Index) (r : CheckResult) :
    CheckEnds s k i r (s.endCheck k i r) := by
  generalize hb : { s with switch := { s.switch with checkers := s.switch.checkers.set k none } } = b
  have he : ∀ j, b.entry j = s.entry j := fun j => by rw [← hb]; rfl
  have hp : s.endCheck k i .pass = ((b.checkPass i).onSwitch fun w => w.fill false).endIfSettled := by rw [← hb]; rfl
  have hf : s.endCheck k i .fail = ((b.checkFail i).onSwitch fun w => w.fill false).endIfSettled := by rw [← hb]; rfl
  unfold CheckEnds
  simp only [hb]
  refine ⟨?_, ?_, ?_, ?_⟩
  · rintro rfl hs
    rw [hp, State.checkPass_eq, he, hs]
    exact State.endIfSettled_settles _
  · rintro rfl hs
    rw [hp, State.checkPass_eq, he]
    rcases hs with hs | hs <;> (rw [hs]; exact State.endIfSettled_settles _)
  · rintro rfl hs
    rw [hf, State.checkFail_eq, he, hs]
    exact State.endIfSettled_settles _
  · rintro rfl hs
    rw [hf, State.checkFail_eq, he]
    rcases hs with hs | hs <;> (rw [hs]; exact State.endIfSettled_settles _)

/-- Where the reading of one checker ends its check and no other reads, the check ends and nothing else changes (R126). -/
theorem State.readSlot_ends (s : State) (n b : Byte) (k : Fin 4) (c : Checker) (r : CheckResult)
    (hc : s.switch.checkers[k] = some c) (ha : c.armed = true) (hn : (s.entry c.index).txSlot = n)
    (hr : c.result b = some r)
    (h : ∀ (j : Fin 4) x, j ≠ k → s.switch.checkers[j] = some x → x.armed = true → (s.entry x.index).txSlot ≠ n) :
    s.readSlot n b = s.endCheck k c.index r := by
  have idle : ∀ (l : List (Fin 4)) (t : State),
      (∀ j ∈ l, ∀ x, t.switch.checkers[j] = some x → x.armed = true → (t.entry x.index).txSlot ≠ n) →
      l.foldl (fun t j => t.readChecker n b j) t = t := by
    intro l
    induction l with
    | nil => exact fun _ _ => rfl
    | cons j l ih =>
      intro t ht
      rw [List.foldl_cons, t.readChecker_idle n b j (ht j (by simp))]
      exact ih t fun i hi => ht i (by simp [hi])
  obtain ⟨pre, post, hl⟩ := List.append_of_mem (List.mem_finRange k)
  have hd : (pre ++ k :: post).Nodup := hl ▸ List.nodup_finRange 4
  have hpre : ∀ j ∈ pre, j ≠ k := fun j hj hk => by
    subst hk
    exact (List.nodup_append.1 hd).2.2 j hj j (by simp) rfl
  have hpost : ∀ j ∈ post, j ≠ k := fun j hj hk => by
    subst hk
    exact (List.nodup_cons.1 (List.nodup_append.1 hd).2.1).1 hj
  unfold State.readSlot
  rw [hl, List.foldl_append, idle pre s fun j hj x => h j x (hpre j hj), List.foldl_cons]
  have hk : s.readChecker n b k = s.endCheck k c.index r := by
    unfold State.readChecker
    simp only [hc, ha, hn, and_self, if_true, hr]
  rw [hk]
  refine idle post _ fun j hj x hx hxa => ?_
  have hrs := s.endCheck_readsAs k c.index r
  rw [hrs.1]
  have := hrs.2 j x hx hxa
  have hjk : k.val ≠ j.val := fun hh => hpost j hj (Fin.ext hh.symm)
  simp only [Fin.getElem_fin, Vector.getElem_set_ne _ _ hjk] at this
  exact h j x (hpost j hj) this hxa

/-- A reading ends the check where it is other than $FF, or the fourth $FF in a row (R126). -/
theorem Checker.result_eq (c : Checker) (b : Byte) :
    c.result b = if b ≠ 0xFF ∨ 3 ≤ c.samples then some (if b = 0xFF then .pass else .fail) else none := by
  unfold Checker.result Config.quietReadings Config.idleSample
  by_cases h1 : b = 0xFF
  · by_cases h2 : 3 ≤ c.samples
    · have : 4 ≤ c.samples + 1 := by omega
      simp [h1, h2]
    · have : ¬ 4 ≤ c.samples + 1 := by omega
      simp [h1, h2]
  · have h2 : b ≠ 255#8 := h1
    simp [h2]

/-! ### One highway slot -/

/-- Nothing has passed yet. -/
theorem SlotsPass.refl (s : State) (f : HighwayFrame) (k : Nat) (h : s.switch.timing = some ⟨f, k⟩) :
    SlotsPass s f k k s.switch where
  rest := by rw [← h]
  outbound c := by rw [if_neg (by omega)]
  copied i _ h1 h2 := by omega
  kept c _ := rfl
  readings j := by
    have : (fun x : Checker =>
        let n := (s.entry x.index).txSlot
        if k ≤ n.toNat ∧ n.toNat < k ∧ x.armed = true then { x with samples := x.samples + 1 } else x) = id := by
      funext x
      exact if_neg (by omega)
    rw [this, Option.map_id, id]

/-- One highway slot passes (R119, R123, R126): its fills, copies and readings, and the end of the check that a reading
in it decides. -/
theorem State.passSlot_passes (s : State) (f : HighwayFrame) (k : Nat) (hr : s.running = true)
    (hp : s.switch.highway = .present) (h : s.switch.timing = some ⟨f, k⟩) (hk : k < 256) (ht : TableSound s)
    (hs : SwitchSound s) : SlotPasses s f k s.passSlot := by
  have hn : (BitVec.ofNat 8 k : Byte).toNat = k := by simp; omega
  generalize hb : (BitVec.ofNat 8 k : Byte) = n at hn
  subst hn
  have at_ : ∀ x : Byte, (n.toNat ≤ x.toNat ∧ x.toNat < n.toNat + 1) ↔ x = n := fun x => by
    rw [← BitVec.toNat_inj]; omega
  generalize htt : (s.onSwitch fun w => { w.fillBefore f n with timing := some ⟨f, n.toNat + 1⟩ }) = t
  have hent : ∀ i, t.entry i = s.entry i := fun i => by rw [← htt]; rfl
  have hdr : ∀ i, t.drives i = ((s.entry i).state == .live) := fun i => by
    rw [t.drives_eq (by rw [← htt, State.onSwitch_running, hr]) (by rw [← htt]; exact hp), hent]
  generalize hbyte : s.heardAt f n.toNat n = b
  obtain ⟨inb, hcopy, hinb⟩ := t.copySlot_eq n b
  generalize hu : t.copySlot n b = u at hcopy
  have hpass : s.passSlot = u.readSlot n b := by
    unfold State.passSlot
    rw [h]
    simp only [Config.frameSlots, hk, if_true, hb, s.nextByte_eq f n hr hp, hbyte, htt, hu]
  have hue : ∀ i, u.entry i = s.entry i := fun i => by rw [hcopy]; exact hent i
  have huc : u.switch.checkers = s.switch.checkers := by rw [hcopy, ← htt]; rfl
  have hdec : ∀ x : Checker, s.decides f n.toNat (n.toNat + 1) x ↔
      x.armed = true ∧ (s.entry x.index).txSlot = n ∧ x.result b ≠ none := by
    intro x
    unfold State.decides
    rw [Checker.result_eq]
    constructor
    · rintro ⟨h1, h2, h3, h4⟩
      have hx := (at_ _).1 ⟨h1, h2⟩
      rw [hx, hbyte] at h4
      exact ⟨h3, hx, by rw [if_pos h4]; simp⟩
    · rintro ⟨h3, hx, h4⟩
      have h12 := (at_ _).2 hx
      refine ⟨h12.1, h12.2, h3, ?_⟩
      rw [hx, hbyte]
      by_contra h5
      rw [if_neg h5] at h4
      exact h4 rfl
  have hcnt : ∀ x : Checker, u.counted n x =
      if n.toNat ≤ (s.entry x.index).txSlot.toNat ∧ (s.entry x.index).txSlot.toNat < n.toNat + 1 ∧ x.armed = true then
        { x with samples := x.samples + 1 } else x := by
    intro x
    unfold State.counted
    rw [hue]
    by_cases hx : (s.entry x.index).txSlot = n
    · have := (at_ _).2 hx
      simp only [hx, and_true]
      simp
    · have : ¬ (n.toNat ≤ (s.entry x.index).txSlot.toNat ∧ (s.entry x.index).txSlot.toNat < n.toNat + 1) :=
        fun hh => hx ((at_ _).1 hh)
      rw [if_neg (fun hh => hx hh.2), if_neg (fun hh => this ⟨hh.1, hh.2.1⟩)]
  generalize hw : { u.switch with checkers := u.switch.checkers.map (Option.map (u.counted n)) } = w
  have hpw : SlotsPass s f n.toNat (n.toNat + 1) w := by
    rw [← hw, hcopy, ← htt]
    constructor
    · rfl
    · intro c
      simp only [at_]
      exact SlotSwitch.fillBefore_outbound s.switch f n c.toFin
    · intro i hl h1 h2
      have hx := (at_ _).1 ⟨h1, h2⟩
      rw [hx, hbyte]
      refine (hinb (s.entry i).channel.toFin).trans (if_pos ⟨i, List.mem_finRange i, ?_, ?_⟩)
      · rw [hdr, hent]; simp [hl, hx]
      · rw [hent]
    · intro c hc
      refine (hinb c.toFin).trans ((if_neg ?_).trans (by rw [← htt]; rfl))
      rintro ⟨i, -, ⟨h1, h2⟩, h3⟩
      rw [hdr] at h1
      rw [hent] at h2 h3
      exact hc i (by simpa using h1) (BitVec.eq_of_toFin_eq h3) ((at_ _).2 h2)
    · intro j
      simp only [Fin.getElem_fin, Vector.getElem_map]
      show Option.map _ s.switch.checkers[j] = _
      congr 1
      funext x
      have := hcnt x
      rw [hcopy, ← htt] at this
      exact this
  refine ⟨w, hpw, fun hno => ?_, fun j x hx hd => ?_⟩
  · have hq := u.readSlot_quiet n b fun j x hx ha hxn => by
      rw [huc] at hx
      rw [hue] at hxn
      by_contra hne
      exact hno j x hx ((hdec x).2 ⟨ha, hxn, hne⟩)
    rw [hpass, hq, hw, hcopy, ← htt]
    rfl
  · obtain ⟨ha, hxn, hne⟩ := (hdec x).1 hd
    have hres : x.result b = some (if s.heardAt f n.toNat (s.entry x.index).txSlot = 0xFF then .pass else .fail) := by
      rw [hxn, hbyte, Checker.result_eq] at *
      split at hne
      · next hh => rw [if_pos hh]
      · exact absurd rfl hne
    have occupied : ∀ (i : Fin 4) y, s.switch.checkers[i] = some y → (s.entry y.index).state ≠ .empty := by
      intro i y hy he
      have hc : s.switch.checking y.index = true := by
        unfold SlotSwitch.checking SlotSwitch.onChecker
        refine Bool.or_eq_true_iff.2 (.inr (List.any_eq_true.2 ⟨i, List.mem_finRange i, ?_⟩))
        rw [hy]
        simp
      rcases hs.waiting _ hc with h1 | h1 | h1 <;> rw [he] at h1 <;> cases h1
    have hends := u.readSlot_ends n b j x _ (by rw [huc]; exact hx) ha (by rw [hue]; exact hxn) hres
      fun i y hij hy _ hyn => by
        rw [huc] at hy
        rw [hue] at hyn
        by_cases hidx : x.index = y.index
        · exact hij (hs.distinct i j y x hy hx hidx.symm)
        · exact (ht.unique _ _ (occupied j x hx) (occupied i y hy) hidx).2.1 (hxn.trans hyn.symm)
    have hset : { u with switch := { u.switch with checkers := u.switch.checkers.set j none } }
        = { { s with switch := w } with switch := { w with checkers := w.checkers.set j none } } := by
      have hvec : u.switch.checkers.set j none = w.checkers.set j none := by
        ext1 i hi
        by_cases hij : j.val = i
        · subst hij; simp
        · rw [Vector.getElem_set_ne _ _ hij, Vector.getElem_set_ne _ _ hij, ← hw]
          simp only [Vector.getElem_map]
          cases hy : u.switch.checkers[i] with
          | none => rfl
          | some y =>
            have hy' : s.switch.checkers[(⟨i, hi⟩ : Fin 4)] = some y := by rw [← huc]; exact hy
            have hne' : ¬ (y.armed = true ∧ (u.entry y.index).txSlot = n) := by
              rintro ⟨-, hyn⟩
              rw [hue] at hyn
              by_cases hidx : x.index = y.index
              · exact hij (congrArg Fin.val (hs.distinct j ⟨i, hi⟩ x y hx hy' hidx))
              · exact (ht.unique _ _ (occupied j x hx) (occupied _ y hy') hidx).2.1 (hxn.trans hyn.symm)
            simp only [Option.map_some, State.counted, if_neg hne']
      rw [hvec, ← hw, hcopy, ← htt]
      rfl
    have hc := u.endCheck_ends j x.index
      (if s.heardAt f n.toNat (s.entry x.index).txSlot = 0xFF then .pass else .fail)
    rw [hpass, hends]
    unfold CheckEnds at hc ⊢
    rw [hset] at hc
    rw [hue] at hc
    exact hc

/-- The sample that stands as a slot begins, from the state that earlier slots have left (R119). -/
theorem SlotsPass.sampleAt {s : State} {f : HighwayFrame} {k m : Nat} {w : SlotSwitch} (h : SlotsPass s f k m w)
    (hkm : k ≤ m) (n : Byte) (hn : m ≤ n.toNat) (c : BitVec 6) :
    State.sampleAt { s with switch := w } f m n c = s.sampleAt f k n c := by
  unfold State.sampleAt
  have := h.outbound c
  generalize f.fills[c.toFin] = x at this
  by_cases h1 : m ≤ x.slot.toNat ∧ x.slot.toNat ≤ n.toNat
  · rw [if_pos h1, if_pos (by omega)]
  · rw [if_neg h1]
    refine this.trans ?_
    by_cases h2 : k ≤ x.slot.toNat ∧ x.slot.toNat < m
    · rw [if_pos h2, if_pos (by omega)]
    · rw [if_neg h2, if_neg (by omega)]

/-- The byte on HDI in a slot, from the state that earlier slots have left (R123). -/
theorem SlotsPass.heardAt {s : State} {f : HighwayFrame} {k m : Nat} {w : SlotSwitch} (h : SlotsPass s f k m w)
    (hkm : k ≤ m) (n : Byte) (hn : m ≤ n.toNat) :
    State.heardAt { s with switch := w } f m n = s.heardAt f k n := by
  unfold State.heardAt
  have he : ∀ i, State.entry { s with switch := w } i = s.entry i := fun _ => rfl
  simp only [he, h.sampleAt hkm n hn]

/-- One slot more. -/
theorem SlotsPass.next {s : State} {f : HighwayFrame} {k m : Nat} {w v : SlotSwitch} (ht : TableSound s)
    (hkm : k ≤ m) (h : SlotsPass s f k m w) (h1 : SlotsPass { s with switch := w } f m (m + 1) v) :
    SlotsPass s f k (m + 1) v := by
  have he : ∀ i, State.entry { s with switch := w } i = s.entry i := fun _ => rfl
  constructor
  · have a := h1.rest
    have b := h.rest
    rw [a]
    simp only
    rw [b]
  · intro c
    rw [h1.outbound c]
    generalize hx : f.fills[c.toFin] = x
    by_cases h2 : m ≤ x.slot.toNat ∧ x.slot.toNat < m + 1
    · rw [if_pos h2, if_pos (by omega)]
    · rw [if_neg h2]
      refine (h.outbound c).trans ?_
      rw [hx]
      by_cases h3 : k ≤ x.slot.toNat ∧ x.slot.toNat < m
      · rw [if_pos h3, if_pos (by omega)]
      · rw [if_neg h3, if_neg (by omega)]
  · intro i hl h2 h3
    by_cases h4 : m ≤ (s.entry i).rxSlot.toNat
    · exact (h1.copied i hl h4 h3).trans (h.heardAt hkm _ h4)
    · refine (h1.kept (s.entry i).channel ?_).trans (h.copied i hl h2 (by omega))
      intro j hj hc
      rw [he] at hj hc ⊢
      have : i = j := by
        by_contra hne
        exact (ht.unique i j (by simp [hl]) (by simp [hj]) hne).2.2 hc.symm
      subst this
      omega
  · intro c hc
    refine (h1.kept c fun i hl hic => ?_).trans (h.kept c fun i hl hic => ?_)
    · have := hc i hl hic
      rw [he]
      omega
    · have := hc i hl hic
      omega
  · intro j
    rw [h1.readings j]
    show Option.map _ w.checkers[j] = _
    rw [h.readings j, Option.map_map]
    congr 1
    funext x
    simp only [Function.comp, he]
    generalize hn : (s.entry x.index).txSlot = n
    by_cases h2 : k ≤ n.toNat ∧ n.toNat < m ∧ x.armed = true
    · rw [if_pos h2]
      simp only [hn]
      rw [if_neg (by omega), if_pos ⟨h2.1, by omega, h2.2.2⟩]
    · rw [if_neg h2]
      simp only [hn]
      by_cases h3 : m ≤ n.toNat ∧ n.toNat < m + 1 ∧ x.armed = true
      · rw [if_pos h3, if_pos ⟨by omega, h3.2⟩]
      · rw [if_neg h3, if_neg]
        intro hh
        by_cases h4 : n.toNat < m
        · exact h2 ⟨hh.1, h4, hh.2.2⟩
        · exact h3 ⟨by omega, hh.2⟩

/-! ### Many highway slots -/

/-- What passing so many highway slots does: they run one after another (R119), for a state whose soundness they keep. -/
theorem State.passSlots_run (P : State → Prop) (hP : ∀ u, P u → P u.passSlot)
    (h1 : ∀ u x, P u → u.switch.timing = some x → x.slot < 256 → SlotPasses u x.frame x.slot u.passSlot
      ∧ u.passSlot.switch.timing = some { x with slot := x.slot + 1 }) :
    ∀ (d : Nat) (s : State) (x : FrameTiming), P s → s.switch.timing = some x → x.slot + d ≤ 256 →
      SlotsRun d s (State.passSlots d s) ∧ P (State.passSlots d s)
        ∧ (State.passSlots d s).switch.timing = some { x with slot := x.slot + d } := by
  intro d
  induction d with
  | zero => exact fun s x hs hx _ => ⟨rfl, hs, hx⟩
  | succ d ih =>
    intro s x hs hx hd
    obtain ⟨hq, ht⟩ := h1 s x hs hx (by omega)
    obtain ⟨hr, hp, hf⟩ := ih s.passSlot { x with slot := x.slot + 1 } (hP s hs) ht (by simp only; omega)
    refine ⟨⟨x, s.passSlot, hx, hq, hr⟩, hp, hf.trans ?_⟩
    simp only
    rw [show x.slot + 1 + d = x.slot + (d + 1) by omega]

end Sys2Proof.Machine
end

