-- ==== Sys2Proof/Laws/PerInstr.lean ====
section
/-! SUPPORT. Facts about each command as syntax, one lemma per constructor of `Instr`. -/

/-- The command has no encoding: the table gives its row no bits, so no word spells it. -/
def Sys2Proof.Laws.NoWord.Statement (i : Sys2Proof.Instr) : Prop :=
  ∀ nbits w : Nat, Sys2Proof.decodeTableWord nbits w ≠ some i

namespace Sys2Proof.Laws

theorem NoWord.powerOn : NoWord.Statement .powerOn := nofun
theorem NoWord.holdEntry (phase : SendPhase) (vretLow : Bool) : NoWord.Statement (.holdEntry phase vretLow) := nofun
theorem NoWord.mainOscillatorStop : NoWord.Statement .mainOscillatorStop := nofun
theorem NoWord.supplyUpInHold (aux : Nat) : NoWord.Statement (.supplyUpInHold aux) := nofun
theorem NoWord.supplyDownInWake (aux : Nat) (vretLow : Bool) : NoWord.Statement (.supplyDownInWake aux vretLow) := nofun
theorem NoWord.retentionLoss : NoWord.Statement .retentionLoss := nofun
theorem NoWord.outageCounterSaturated : NoWord.Statement .outageCounterSaturated := nofun
theorem NoWord.wakeEnd (aux : Nat) (straps : CardSlot) : NoWord.Statement (.wakeEnd aux straps) := nofun
theorem NoWord.calibrationWindowEnd (count : Nat) : NoWord.Statement (.calibrationWindowEnd count) := nofun
theorem NoWord.offerPoint : NoWord.Statement .offerPoint := nofun
theorem NoWord.shelfLineStuck : NoWord.Statement .shelfLineStuck := nofun
theorem NoWord.framingFault (cause : FramingCause) (gap : Nat) : NoWord.Statement (.framingFault cause gap) := nofun
theorem NoWord.crcFailure (bytes : List Byte) (crc : BitVec 16) (gap : Nat) : NoWord.Statement (.crcFailure bytes crc gap) := nofun
theorem NoWord.malformedFrame (bytes : List Byte) (gap : Nat) : NoWord.Statement (.malformedFrame bytes gap) := nofun
theorem NoWord.frameObserved (origin : FrameOrigin) (f : Frame) : NoWord.Statement (.frameObserved origin f) := nofun
theorem NoWord.rollColdReceived (source : CardSlot) (figure : BitVec 24) : NoWord.Statement (.rollColdReceived source figure) := nofun
theorem NoWord.rollWarmReceived (source : CardSlot) (figure : BitVec 24) : NoWord.Statement (.rollWarmReceived source figure) := nofun
theorem NoWord.bidReceived (source : CardSlot) (b : Bid) : NoWord.Statement (.bidReceived source b) := nofun
theorem NoWord.answerReceived (source : CardSlot) (a : Answer) : NoWord.Statement (.answerReceived source a) := nofun
theorem NoWord.dropReceived (source : CardSlot) (d : Drop) : NoWord.Statement (.dropReceived source d) := nofun
theorem NoWord.carryReceived (source : CardSlot) (c : Carry) : NoWord.Statement (.carryReceived source c) := nofun
theorem NoWord.bidOutcome (o : SendOutcome) : NoWord.Statement (.bidOutcome o) := nofun
theorem NoWord.answerOutcome (o : SendOutcome) : NoWord.Statement (.answerOutcome o) := nofun
theorem NoWord.dropOutcome (o : SendOutcome) : NoWord.Statement (.dropOutcome o) := nofun
theorem NoWord.rollOutcome (o : RollOutcome) : NoWord.Statement (.rollOutcome o) := nofun
theorem NoWord.carryOutcome (o : SendOutcome) : NoWord.Statement (.carryOutcome o) := nofun
theorem NoWord.gatherClose : NoWord.Statement .gatherClose := nofun
theorem NoWord.settleTimerExpiry : NoWord.Statement .settleTimerExpiry := nofun
theorem NoWord.answerTimerExpiry : NoWord.Statement .answerTimerExpiry := nofun
theorem NoWord.deferredDeadline (i : Index) : NoWord.Statement (.deferredDeadline i) := nofun
theorem NoWord.absentDeadline (i : Index) : NoWord.Statement (.absentDeadline i) := nofun
theorem NoWord.openBidExpiry : NoWord.Statement .openBidExpiry := nofun
theorem NoWord.sync (cycles : Nat) (frame : HighwayFrame) : NoWord.Statement (.sync cycles frame) := nofun
theorem NoWord.syncMissing (frame : HighwayFrame) : NoWord.Statement (.syncMissing frame) := nofun
theorem NoWord.runTimeout : NoWord.Statement .runTimeout := nofun
theorem NoWord.quietCheckResult (checker : Fin 4) (reading : Byte) : NoWord.Statement (.quietCheckResult checker reading) := nofun
theorem NoWord.setTiming : NoWord.Statement .setTiming := nofun
theorem NoWord.setClassLimit : NoWord.Statement .setClassLimit := nofun
theorem NoWord.setPacking : NoWord.Statement .setPacking := nofun
theorem NoWord.start : NoWord.Statement .start := nofun
theorem NoWord.writeEntry : NoWord.Statement .writeEntry := nofun
theorem NoWord.clearEntry : NoWord.Statement .clearEntry := nofun
theorem NoWord.readEntry : NoWord.Statement .readEntry := nofun
theorem NoWord.submitUnit : NoWord.Statement .submitUnit := nofun
theorem NoWord.clearCondition : NoWord.Statement .clearCondition := nofun
theorem NoWord.resetLatch : NoWord.Statement .resetLatch := nofun
theorem NoWord.setAttention : NoWord.Statement .setAttention := nofun
theorem NoWord.readRoster : NoWord.Statement .readRoster := nofun
theorem NoWord.readCampaign : NoWord.Statement .readCampaign := nofun
theorem NoWord.readFigures : NoWord.Statement .readFigures := nofun
theorem NoWord.unknownCommand (code : Byte) : NoWord.Statement (.unknownCommand code) := nofun
theorem NoWord.paramWrite (value : Byte) : NoWord.Statement (.paramWrite value) := nofun
theorem NoWord.resultRead : NoWord.Statement .resultRead := nofun
theorem NoWord.statusRead : NoWord.Statement .statusRead := nofun
theorem NoWord.noticeRead : NoWord.Statement .noticeRead := nofun
theorem NoWord.deliveryRead : NoWord.Statement .deliveryRead := nofun
theorem NoWord.ignoredWrite (location : BitVec 3) (value : Byte) : NoWord.Statement (.ignoredWrite location value) := nofun
theorem NoWord.cardReset : NoWord.Statement .cardReset := nofun
theorem NoWord.cardResetRelease : NoWord.Statement .cardResetRelease := nofun

end Sys2Proof.Laws
end

