-- ==== Sys2Proof/Tests/Slice0.lean ====
section
/-! SUPPORT. Tests: the ill-formed terms that WellFormed refuses, the figures and sequences the spec works out,
and for each statement with hypotheses a named witness that meets them (the hypotheses of each clause, at the
boundary of a range where the clause has one). -/

namespace Sys2Proof.Tests

open Sys2Proof.Machine

-- One theorem at a time: many kernel checks at once would ask for more threads than memory allows.
set_option Elab.async false

/-! ### Helpers -/

/-- A half as WRITE ENTRY would write it on card 4, in a state. -/
def half (st : EntryState) (role : Role) (n : Nat) (far : CardSlot) (cls : BitVec 3) : Entry :=
  let e := { Entry.cleared with
    state := st, role := role, circuit := BitVec.ofNat 16 (0x100 + n), farSlot := far
    channel := BitVec.ofNat 6 n, txSlot := BitVec.ofNat 8 (16 + n), rxSlot := BitVec.ofNat 8 (64 + n)
    cls := cls, ordinal := BitVec.ofNat 13 n, key := keyOf cls (BitVec.ofNat 13 n) }
  { e with fingerprint := fingerprintOf 4 e }

/-- Card 4 in ACTIVE mode, its table holding these entries from index 0 on. -/
def card (entries : List Entry) : State :=
  { State.reset with
    cardSlot := 4
    table := Vector.ofFn fun i : Fin 64 => entries.getD i.val Entry.cleared
    port := { State.reset.port with mode := .active } }

/-- The next state, or the state itself where there is none. -/
def after (c : Instr) (s : State) : State :=
  match exec c s with
  | .next t => t
  | _ => s

/-- The state with these bytes in the parameter buffer. -/
def loaded (ps : List Byte) (s : State) : State := { s with port := { s.port with params := ps } }

/-- The result bytes that a port command with these parameter bytes leaves. -/
def results (c : Instr) (ps : List Byte) (s : State) : List Byte := (after c (loaded ps s)).port.results

/-- The state in another power state, its main oscillator running or not. -/
def powered (p : Power) (osc : Bool) (s : State) : State :=
  { s with supply := { s.supply with power := p, mainOsc := osc } }

/-- The state with the frame in the transmit buffer in its receipt field. -/
def inReceipt (s : State) : State :=
  s.onLine fun l => { l with buffer := l.buffer.map fun f => { f with phase := .receipt }, drive := .released }

/-- The state with a frame of this card in the transmit buffer, SENDING. -/
def offering (dest : Destination) (body : FrameBody) (i : Option Index) (s : State) : State :=
  { s with line := { s.line with buffer := some ⟨⟨s.cardSlot, dest, body⟩, i, .sending⟩, drive := .frame } }

/-- A highway frame in which these highway slots are driven by other stations, each sample filled with $11 before
slot 0. -/
def heardIn (others : List (Byte × Byte)) : HighwayFrame :=
  { fills := Vector.replicate 64 ⟨0, 0x11⟩
    others := Vector.ofFn fun n : Fin 256 => (others.find? fun x => x.1.toNat == n.val).map (·.2) }

/-- The state with a frame in progress, so many of its highway slots ended. -/
def inFrame (frame : HighwayFrame) (slot : Nat) (s : State) : State :=
  { s with switch := { s.switch with timing := some ⟨frame, slot⟩ } }

/-- Card 4 in CONTEND at tick 100 with an entry in every state, the highway PRESENT with two syncs missing, and
every checker busy. -/
def busy : State :=
  let s := card
    [ { half .live .origin 0 9 1 with txSeq := 1 },
      half .pending .origin 1 9 1,
      { half .pending .far 2 9 2 with deadline := some 600 },
      { half .bidding .origin 3 9 0 with attempt := 1 },
      { half .deferred .origin 4 11 0 with misses := 3, attempt := 3, deadline := some 700 },
      { half .checking .far 5 9 3 with attempt := 1 },
      half .joining .origin 6 9 3,
      half .parked .far 7 11 4,
      { half .failed .far 8 11 4 with failure := some ⟨.absent, none⟩ },
      half .parked .origin 9 11 5,
      half .parked .far 10 11 5,
      half .live .far 11 9 6 ]
  { s with
    now := 100
    supply := { s.supply with m := 640 }
    relink := { s.relink with
      campaign := .contend, settleTimer := .runsOutAt 200, answerTimer := some 110, front := some 5
      openBid := some ⟨0x103, 4, 9, 100⟩ }
    switch := { s.switch with
      highway := .present, runCount := 16, missing := 2, checkQueue := [10]
      timing := some ⟨heardIn [], 250⟩
      checkers :=
        #v[some ⟨5, 3, true⟩, some ⟨6, 0, false⟩, some ⟨7, 0, true⟩, some ⟨9, 1, true⟩] }
    units := [⟨0, 255, [0xAA], false⟩, ⟨7, 255, [1, 2], false⟩, ⟨0, 0, [0xBB], false⟩]
    port := { s.port with latch := { s.port.latch with lost := false } } }

/-- `busy` with nothing BIDDING, no bid open and no check: entry 1 is its BID candidate. -/
def calm : State :=
  { busy with
    table := busy.table.set 3 Entry.cleared
    relink := { busy.relink with openBid := none, answerTimer := none } }

/-- Card 4 in STEADY with a far and an origin half PARKED, its highway LOST after fifteen good syncs. -/
def dark : State :=
  let s := card [half .parked .far 0 9 1, half .parked .origin 1 9 1]
  { s with switch := { s.switch with runCount := 15 } }

/-- Card 4 in GATHER until tick 300, M at 700: entries 0 and 1 outlast their class limit of 640, card 9 is HEARD. -/
def gathering : State :=
  let s := card
    [half .pending .origin 0 9 1, half .pending .far 1 9 1, half .pending .origin 2 9 0, half .pending .origin 3 11 0,
      half .pending .far 4 11 0, half .live .origin 5 9 0]
  { s with
    now := 100
    supply := { s.supply with m := 700 }
    relink := { s.relink with
      campaign := .gather, gatherTimer := some 300, roster := s.relink.roster.set 9 ⟨true, some (.warm, 640)⟩ }
    port := { s.port with settings := { s.settings with limits := s.settings.limits.set 1 640 } } }

/-- A BID of card 9 for a circuit of `busy` or `dark`. -/
def bid (n : Nat) (e : Entry) (attempt : Nat) (figure : BitVec 24) : Bid :=
  ⟨e.key, BitVec.ofNat 16 (0x100 + n), attempt, e.fingerprint, figure⟩

/-! ### WellFormed refuses -/

theorem test_wf_framing : Instr.wf (.framingFault .sixEqual 3) = false
    ∧ Instr.wf (.framingFault (.bodyLength 43) 0) = false ∧ Instr.wf (.framingFault (.bodyLength 44) 11) = false
    ∧ Instr.wf (.framingFault .earlyDominant 1) = false ∧ Instr.wf (.framingFault (.bodyLength 44) 10) = true := by
  decide

theorem test_wf_gap : Instr.wf (.crcFailure [] 0 11) = false ∧ Instr.wf (.malformedFrame [] 11) = false
    ∧ Instr.wf (.bidOutcome (.outputFailed 11)) = false ∧ Instr.wf (.answerOutcome (.outputFailed 11)) = false
    ∧ Instr.wf (.dropOutcome (.outputFailed 11)) = false ∧ Instr.wf (.carryOutcome (.outputFailed 11)) = false
    ∧ Instr.wf (.rollOutcome (.outputFailed 11)) = false ∧ Instr.wf (.rollOutcome (.outputFailed 10)) = true := by
  decide

theorem test_wf_destination : Instr.wf (.frameObserved .heard ⟨9, .card 4, .roll ⟨.cold, 0⟩⟩) = false
    ∧ Instr.wf (.frameObserved .heard ⟨9, .every, .drop ⟨1, .clash⟩⟩) = false
    ∧ Instr.wf (.frameObserved .heard ⟨9, .card 4, .drop ⟨1, .clash⟩⟩) = true := by decide

theorem test_wf_attempt : Instr.wf (.bidReceived 9 ⟨0, 1, 0, 0, 0⟩) = false
    ∧ Instr.wf (.bidReceived 9 ⟨0, 1, 4, 0, 0⟩) = false ∧ Instr.wf (.answerReceived 9 ⟨1, 0, .match_, 0⟩) = false
    ∧ Instr.wf (.answerReceived 9 ⟨1, 4, .match_, 0⟩) = false ∧ Instr.wf (.bidReceived 9 ⟨0, 1, 3, 0, 0⟩) = true := by
  decide

theorem test_wf_circuit : Instr.wf (.bidReceived 9 ⟨0, 0, 1, 0, 0⟩) = false
    ∧ Instr.wf (.answerReceived 9 ⟨0, 1, .match_, 0⟩) = false ∧ Instr.wf (.dropReceived 9 ⟨0, .cleared⟩) = false
    ∧ Instr.wf (.carryReceived 9 ⟨0, 0, [⟨0, [1]⟩]⟩) = false := by decide

theorem test_wf_units : Instr.wf (.carryReceived 9 ⟨0, 1, []⟩) = false
    ∧ Instr.wf (.carryReceived 9 ⟨0, 1, List.replicate 5 ⟨0, [1]⟩⟩) = false
    ∧ Instr.wf (.carryReceived 9 ⟨0, 1, [⟨0, []⟩]⟩) = false
    ∧ Instr.wf (.carryReceived 9 ⟨0, 1, [⟨0, List.replicate 9 1⟩]⟩) = false
    ∧ Instr.wf (.carryReceived 9 ⟨0, 1, List.replicate 4 ⟨0, List.replicate 8 1⟩⟩) = true := by decide

theorem test_wf_port : Instr.wf (.unknownCommand 0x10) = false ∧ Instr.wf (.unknownCommand 0x13) = true
    ∧ Instr.wf (.ignoredWrite 1 0) = false ∧ Instr.wf (.ignoredWrite 7 0) = true := by decide

/-! ### Figures and sequences the spec works out -/

/-- Section 2.8: the episode figures of its tables. -/
theorem test_episode_figures : episodeFigure 26800 2140 = 801 ∧ episodeFigure 3000 2140 = 90
    ∧ episodeFigure 15 2048 = 0 ∧ episodeFigure 16 2048 = 1 ∧ episodeFigure 47 2048 = 1 ∧ episodeFigure 48 2048 = 2
    ∧ episodeFigure 16777214 2097 = 512037 ∧ episodeFigure 16777215 2097 = 1048575
    ∧ episodeFigure 16777215 1024 = 1048575 ∧ episodeFigure 20000 2097 = 610 ∧ accumulate 1000000 60000 = 1048575 := by
  decide

/-- Sections 1.9 and 2.8: the key and the fingerprints of circuit $0123. -/
theorem test_key_and_fingerprint : keyOf 1 16 = 0x2010 ∧ twoSum [1, 35, 4, 9, 42, 87, 1, 0, 16] = 0xB7C3
    ∧ twoSum [1, 35, 4, 9, 87, 42, 1, 0, 16] = 0xE4C3 ∧ twoSum [1, 35, 4, 9, 42, 87, 1, 0, 17] = 0xB8C4
    ∧ twoSum [1, 35, 4, 9, 255, 87, 1, 0, 16] = twoSum [1, 35, 4, 9, 0, 87, 1, 0, 16] := by decide

/-- Section 4.8: card 11's BID as it stands on the line from the start bit through byte 2, stuff bits and all. -/
theorem test_line_bits : (lineBits ⟨11, .card 5, .bid ⟨0x200C, 1, 1, 0, 0⟩⟩).take 27 =
    [0, 1, 0, 0, 1, 1, 0, 0, 0, 0, 0, 1, 1, 0, 0, 0, 0, 0, 1, 0, 0, 0, 0, 1, 1, 0, 0].map (· == 1) := by
  decide +kernel

/-- Section 4.8: card 11's BID wins against card 4's BID and card 2's CARRY. -/
theorem test_arbitration :
    let f : Frame := ⟨11, .card 5, .bid ⟨0x200C, 1, 1, 0, 0⟩⟩
    losesTo (lineBits ⟨4, .card 9, .bid ⟨0x2010, 0x123, 1, 0, 0⟩⟩) (lineBits f) = true
      ∧ losesTo (lineBits ⟨2, .card 9, .carry ⟨5, 1, [⟨0, [1]⟩]⟩⟩) (lineBits f) = true := by decide +kernel

/-- Section 1.9: card 4 writes index 5 while its campaign is STEADY; then tx slot $2A again, at index 1. -/
theorem test_write_entry :
    let s := loaded [5, 0x01, 0x23, 0, 9, 12, 0x2A, 0x57, 1, 0, 16, 0] (card [])
    (after .writeEntry s).port.results = [0x01, 0x01, 0x20, 0x10, 0xB7, 0xC3]
      ∧ results .writeEntry [1, 0x04, 0x56, 0, 9, 13, 0x2A, 0x57, 1, 0, 16, 0] (after .writeEntry s)
        = [0x05, 0x03, 0x05] := by decide +kernel

/-- Section 10.10: SET TIMING clamps W from 60 to 50, SET CLASS LIMIT stores 500, START leaves STATUS at $A8. -/
theorem test_configuring :
    results .setTiming [0x00, 0xC8, 0x3C, 0x13, 0x88, 0x00, 0x64] State.reset
        = [0x02, 0x00, 0xC8, 0x32, 0x13, 0x88, 0x00, 0x64]
      ∧ results .setClassLimit [0x03, 0x00, 0x01, 0xF4] State.reset = [0x01, 0x03, 0x00, 0x01, 0xF4]
      ∧ results .start [0x00] State.reset = [0x04, 0x00] ∧ (after .start State.reset).statusByte = 0xA8 := by
  decide +kernel

/-- Section 3.8: the WAKE end with T at 20,000 is a warm wake with E and M at 610, in GATHER. -/
theorem test_warm_wake :
    let t := after (.wakeEnd 8 0) (powered .wake true { dark with supply := { dark.supply with t := 19992 } })
    t.supply.e = 610 ∧ t.supply.m = 610 ∧ t.relink.campaign = .gather ∧ t.relink.pendingRoll = some .warm
      ∧ (t.entry 0).state = .pending := by decide +kernel

/-- Section 9.7: units 38 and 39 judged with rx expected 40 are duplicates. -/
theorem test_duplicates : [⟨38, [1]⟩, ⟨39, [1]⟩].foldl (judgeUnit 0 0x123) (40, []) = (40, []) := by decide

/-- Section 11.5: units 12 and 13 judged with rx expected 0 leave a GAP record, then one with condition NONE. -/
theorem test_gap : [⟨12, [1]⟩, ⟨13, [2]⟩].foldl (judgeUnit 2 0x35) (0, [])
    = (14, [⟨2, 0x35, 12, [1], true⟩, ⟨2, 0x35, 13, [2], false⟩]) := by decide

/-- Section 7.7: the third missing sync parks LIVE and JOINING entries, and a CHECKING one answers MATCH-PARKED. -/
theorem test_third_missing_sync :
    let t := after (.syncMissing (heardIn [])) busy
    (t.entry 0).state = .parked ∧ (t.entry 6).state = .parked ∧ t.relink.answers.map (·.verdict) = [.matchParked] := by
  decide +kernel

/-- R105: a DROP for entry 2 takes its MATCH off the list, and leaves a REFUSE-UNKNOWN item of its circuit and slot. -/
theorem test_refuse_unknown_stays :
    [Verdict.match_, .refuseUnknown].map (fun v => (after (.dropReceived 9 ⟨0x102, .cleared⟩)
      { busy with relink := { busy.relink with answers := [⟨0x102, 9, 1, v, 0⟩] } }).relink.answers.length) = [0, 1] := by
  decide +kernel

/-- R13: entry 1 is cleared while its BID is on the line and written anew alike; the BID's outcome is ignored. -/
theorem test_bid_of_cleared_entry :
    let s := offering (.card 9) (.bid (bid 1 (calm.entry 1) 1 0)) (some 1) calm
    let again := after .writeEntry (loaded [1, 0x01, 0x01, 0, 9, 1, 17, 65, 1, 0, 1, 0] (after .clearEntry (loaded [1] s)))
    ((after (.bidOutcome .taken) s).entry 1).state = .bidding
      ∧ ((again.entry 1).state = .pending ∧ (again.entry 1).circuit = (s.entry 1).circuit)
      ∧ ((after (.bidOutcome .taken) again).entry 1).state = .pending
      ∧ (after (.bidOutcome .taken) again).line.buffer = none := by decide +kernel

/-! ### `busy` meets every rule of every moment -/

theorem busy_range : InRange busy := by
  constructor
  case slots => rintro x ⟨⟩; decide
  case samples =>
    have all : ∀ k : Fin 4, (busy.switch.checkers[k]).all (fun c => decide (c.samples < Config.quietReadings)) = true := by
      decide +kernel
    intro k c h
    have := all k
    rw [h] at this
    simpa using this
  all_goals decide +kernel

theorem busy_table : TableSound busy := by constructor <;> decide +kernel

theorem busy_config : ConfigSound busy := by constructor <;> decide +kernel

theorem busy_campaign : CampaignSound busy := by
  constructor
  case ended => exact fun h => absurd h.2.1 (by decide +kernel)
  all_goals decide +kernel

theorem busy_deadlines : DeadlinesSound busy := by unfold DeadlinesSound; decide +kernel

theorem busy_bidding : BiddingSound busy := by
  constructor
  case line => exact fun ⟨_, _, h, _⟩ => nomatch h
  all_goals decide +kernel

theorem busy_latch : LatchSound busy := by constructor <;> decide +kernel

theorem busy_switch : SwitchSound busy := by
  constructor
  case distinct =>
    have all : ∀ j k : Fin 4,
        (busy.switch.checkers[j]).map Checker.index = (busy.switch.checkers[k]).map Checker.index → j = k := by
      decide +kernel
    exact fun j k c d hc hd h => all j k (by simp [hc, hd, h])
  all_goals (try unfold EntryState.awaitsCheck); decide +kernel

theorem busy_units : UnitsSound busy := by
  have unmarked : ∀ u ∈ busy.units, u.inFlight = false := by decide +kernel
  constructor
  case sequence =>
    intro i n u h
    obtain ⟨hn, rfl⟩ := List.getElem?_eq_some_iff.mp h
    revert i n
    decide +kernel
  case oldest =>
    exact fun i m n u v _ _ h f => by simp [unmarked v (List.mem_filter.mp (List.mem_of_getElem? h)).1] at f
  case onLine => exact fun ⟨u, h, f⟩ => by simp [unmarked u h] at f
  all_goals decide +kernel

theorem busy_frames : FramesSound busy := by
  constructor
  case buffer => exact fun _ h => nomatch h
  case completed => exact fun _ h => nomatch h
  all_goals decide +kernel

/-- The premises of the ten statements on what every step keeps: each invariant at `busy`, which has a next state. -/
theorem test_StepsKeep_met : (∃ t, step busy = .next t)
    ∧ InRange busy ∧ TableSound busy ∧ (ConfigSound busy ∧ CampaignSound busy ∧ DeadlinesSound busy)
    ∧ BiddingSound busy ∧ LatchSound busy ∧ SwitchSound busy ∧ UnitsSound busy ∧ FramesSound busy :=
  ⟨⟨_, rfl⟩, busy_range, busy_table, ⟨busy_config, busy_campaign, busy_deadlines⟩, busy_bidding, busy_latch, busy_switch,
    busy_units, busy_frames⟩

/-! ### Witnesses: the queue, the clock and power -/

theorem test_IdleStepTicksOrTakesDueEvent_met :
    (busy.pending = [] ∧ busy.running = true ∧ busy.dueEvent = none)
    ∧ (powered .hold false busy).running = false
    ∧ { busy with now := 110 }.dueEvent = some .openBidExpiry ∧ { calm with now := 600 }.dueEvent = some (.absentDeadline 2)
    ∧ { gathering with now := 300 }.dueEvent = some .gatherClose
    ∧ { calm with now := 200 }.dueEvent = some .settleTimerExpiry
    ∧ (let s := after (.dropReceived 9 ⟨1, .clash⟩) busy; s.dueEvent = none ∧ s.line.closing ≠ none)
    ∧ (let s := after .offerPoint calm; s.dueEvent = none ∧ s.line.closing = none ∧ s.line.transmitter = .contending)
    ∧ (let s := offering (.card 9) (.drop ⟨1, .clash⟩) none busy; s.dueEvent = none ∧ s.line.transmitter = .sending)
    ∧ (busy.line.closing = none ∧ busy.line.buffer = none ∧ busy.switch.highway = .present)
    ∧ (State.reset.dueEvent = none ∧ State.reset.switch.timing = none) := by decide +kernel

/-- The premises on a highway slot still to pass. -/
theorem test_slots_met : busy.switch.timing = some ⟨heardIn [], 250⟩ ∧ TableSound busy ∧ SwitchSound busy :=
  ⟨rfl, busy_table, busy_switch⟩

/-- R54: only a frame that has gone as far as SENDING, and not to its receipt field, is aborted. -/
theorem test_HoldEntryParksEveryBlock_met : busy.running = true
    ∧ (let s := after .offerPoint calm
       [SendPhase.contending, .sending, .receipt].map (fun p => (after (.holdEntry p false) s).slnBits.length) = [0, 8, 0])
    ∧ (let s := offering (.card 9) (.drop ⟨1, .clash⟩) none busy
       [SendPhase.contending, .sending, .receipt].map (fun p => (after (.holdEntry p false) s).slnBits.length) = [8, 8, 0]) := by
  decide +kernel

theorem test_SupplyMonitorEvents_met :
    ((powered .hold false busy).supply.power = .hold ∧ (powered .hold false busy).supply.mainOsc = false)
    ∧ (let s := powered .hold true busy; s.supply.power = .hold ∧ s.supply.mainOsc = true ∧ s.supply.upSeen = false)
    ∧ (let s := after (.supplyUpInHold 1) (powered .hold true busy)
       s.supply.power = .hold ∧ s.supply.mainOsc = true ∧ s.supply.upSeen = true)
    ∧ (powered .wake true busy).supply.power = .wake ∧ (powered .wake true busy).supply.power ≠ .run
    ∧ [1023, 1024, 4095, 4096].map (fun n => (after (.calibrationWindowEnd n) busy).supply.a) = [2097, 1024, 4095, 2097]
    ∧ [1023, 1024, 4095, 4096].map (fun n => (after (.calibrationWindowEnd n) busy).supply.calFault)
        = [true, false, false, true] := by decide +kernel

theorem test_WakeEnd_met :
    (let s := powered .wake true busy
     s.supply.power = .wake ∧ s.supply.retention = true ∧ s.active = true ∧ s.port.crstEdge = false)
    ∧ (let s := powered .wake true State.reset
       s.supply.power = .wake ∧ s.supply.retention = true ∧ s.active = false ∧ s.port.crstEdge = false)
    ∧ (let s := after .retentionLoss (powered .hold false busy)
       (powered .wake true s).supply.power = .wake ∧ (powered .wake true s).supply.retention = false) := by decide +kernel

theorem test_OnlyColdStartUndoes_met :
    let s := powered .wake true { busy with line := { busy.line with silenced := true } }
    keepsMemory (.wakeEnd 5 9) s ∧ (∃ t, exec (.wakeEnd 5 9) s = .next t) ∧ s.line.silenced = true ∧ s.active = true :=
  ⟨⟨nofun, fun _ _ _ _ => rfl⟩, ⟨_, rfl⟩, rfl, rfl⟩

theorem test_EntriesKeepTheirHalf_met :
    (keepsMemory .clearEntry (loaded [0] busy) ∧ ∃ t, exec .clearEntry (loaded [0] busy) = .next t)
    ∧ (busy.entry 63).state = .empty ∧ (busy.entry 0).state ≠ .empty ∧ (busy.entry 8).state = .failed :=
  ⟨⟨⟨nofun, nofun⟩, _, rfl⟩, by decide +kernel⟩

/-! ### Witnesses: the line -/

theorem test_FrameReadsBack_met :
    let whole : Frame := ⟨31, .card 0, .carry ⟨0xFFFF, 0xFFFF, List.replicate 4 ⟨255, List.replicate 8 0xFF⟩⟩⟩
    let bytes : List Byte := [0x50, 0, 0, 9, 4, 3, 0x01, 0x23, 3]
    readFrame (frameBytes whole) = some whole ∧ (frameBytes whole).length = 49
    ∧ readFrame bytes = some ⟨9, .card 4, .drop ⟨0x123, .clash⟩⟩
    ∧ [bytes.set 0 0x51, bytes.set 2 1, bytes.set 3 32, bytes.set 4 0x3F, bytes.set 5 4, bytes.set 8 4].map readFrame
      = List.replicate 6 none := by decide +kernel

theorem test_LowestArbitrationFieldWins_met :
    let f : Frame := ⟨0, .card 5, .bid ⟨0x200C, 1, 1, 0, 0⟩⟩
    let g : Frame := ⟨31, .card 5, .bid ⟨0x200C, 1, 1, 0, 0⟩⟩
    f.wf = true ∧ g.wf = true ∧ arbitrationField f < arbitrationField g ∧ f.source ≠ g.source := by decide +kernel

theorem test_OfferPointTakesFirstCandidate_met :
    (calm.running = true ∧ calm.line.buffer = none ∧ calm.active = true ∧ calm.line.silenced = false
      ∧ calm.relink.answers = [] ∧ calm.relink.pendingRoll = none ∧ calm.relink.drops = [] ∧ calm.bidsFirst 1)
    ∧ State.reset.active = false
    ∧ (after .offerPoint { calm with relink := { calm.relink with answers := [⟨1, 9, 1, .match_, 0⟩] } }).slnFrame
        = some ⟨4, .card 9, .answer ⟨1, 1, .match_, 0⟩⟩
    ∧ (after .offerPoint { calm with relink := { calm.relink with pendingRoll := some .warm } }).slnFrame
        = some ⟨4, .every, .roll ⟨.warm, 640⟩⟩
    ∧ (after .offerPoint { calm with relink := { calm.relink with drops := [⟨1, 9, .clash, 0⟩] } }).slnFrame
        = some ⟨4, .card 9, .drop ⟨1, .clash⟩⟩ := by
  unfold State.bidsFirst
  decide +kernel

theorem test_CarryPacksOldestUnits_met :
    (busy.running = true ∧ busy.line.buffer = none ∧ busy.active = true ∧ busy.line.silenced = false
      ∧ busy.relink.answers = [] ∧ busy.relink.pendingRoll = none ∧ busy.relink.drops = []
      ∧ (∀ i, ¬ busy.bidsFirst i) ∧ busy.carriesFirst 0)
    ∧ ((∀ i, ¬ gathering.bidsFirst i) ∧ ∀ i, ¬ gathering.mayCarry i) := by
  unfold State.bidsFirst State.carriesFirst State.mayCarry
  and_intros <;> decide +kernel

/-- `busy` with its receiver IDLE and the gap count at `n`. -/
def quiet (n : Nat) : State := busy.onLine fun l => { l with receiver := .idle, gap := n }

/-- The line after so many dominant bits in a row. -/
def low (n : Nat) (l : ShelfLine) : ShelfLine := (List.replicate n false).foldl ShelfLine.readBit l

theorem test_LineFaultsDiscardFrames_met :
    (busy.running = true ∧ busy.line.receiver = .hunt ∧ busy.line.gap < 10 ∧ busy.line.dominant ≤ 2000)
    ∧ (43 < (44 : Byte).toNat ∧ 10 < 11 ∧ (0 : BitVec 16) ≠ crc16 [0x31])
    ∧ (let l := (quiet 11).line; l.receiver = .idle ∧ l.receiver ≠ .receiving ∧ l.gap = 11 ∧ l.inStuffed = true)
    ∧ (let l := low 5 (quiet 11).line; l.receiver = .receiving ∧ l.inStuffed = true ∧ l.dominant = 5)
    ∧ (let l := { (low 4 (quiet 11).line) with gap := 5 }; l.receiver = .receiving ∧ l.inStuffed = true ∧ l.dominant < 5)
    ∧ { (quiet 10).line with receiver := .hunt }.gap = 10
    ∧ (after (.dropReceived 9 ⟨1, .clash⟩) busy).line.inStuffed = false
    ∧ ∀ f : Frame, f.wf = true → frameBytes f ≠ [] :=
  ⟨by decide +kernel, by decide, by decide +kernel, by decide +kernel, by decide +kernel, by decide, by decide +kernel,
    fun _ _ h => nomatch h⟩

/-- Table 4-5: eleven recessive bits from HUNT, a start bit, a start gap broken off at ten. -/
theorem test_receiver :
    let l := (List.replicate 11 true).foldl ShelfLine.readBit ShelfLine.cold
    (l.receiver = .idle ∧ l.gap = 11) ∧ (l.readBit false).receiver = .receiving
    ∧ (((List.replicate 10 true).foldl ShelfLine.readBit { l with gap := 0 }).readBit false).receiver = .hunt := by
  decide

/-- R53 and R55: a line held low from an offer point: RECEIVING for five bits, HUNT at the sixth, STUCK past 2000, and
NORMAL at the eleventh recessive bit after. -/
theorem test_stuck :
    [1, 5, 6].map (fun n => (low n (quiet 11).line).receiver) = [.receiving, .receiving, .hunt]
    ∧ [2000, 2001].map (fun n => (low n (quiet 11).line).stuck) = [false, true]
    ∧ [10, 11].map (fun n => ((List.replicate n true).foldl ShelfLine.readBit (low 2001 (quiet 11).line)).stuck)
        = [true, false] := by decide +kernel

/-- R62: an early dominant bit below the start gap, and at it; R53: while a receipt field runs it ends first. -/
theorem test_early_dominant :
    [10, 11].map (fun n => (after (.framingFault .earlyDominant 0) (quiet n)).line.receiver) = [.hunt, .receiving]
    ∧ (let s := after (.framingFault .earlyDominant 0) (after (.dropReceived 9 ⟨1, .clash⟩) busy)
       s.line.receiver = .hunt ∧ s.line.receipt = none ∧ s.line.closing = none) := by decide +kernel

/-- R66: a frame in its receipt field loses nothing, and no output of its fails; its receipt ends it. -/
theorem test_receipt_is_not_lost :
    let s := inReceipt (offering (.card 9) (.drop ⟨1, .clash⟩) none busy)
    ([.lost, .outputFailed 3, .taken].map fun o => (after (.dropOutcome o) s).line.buffer.isSome) = [true, true, false]
    ∧ ¬ SendOutcome.possible .lost .receipt ∧ SendOutcome.possible .lost .sending ∧ SendOutcome.possible .taken .receipt := by
  exact ⟨by decide +kernel, fun h => (h rfl).1 rfl, nofun, fun _ => ⟨nofun, nofun⟩⟩

/-- R148: a ROLL WARM from the far slot moves the entry to PENDING and leaves the CARRY on the line; TAKEN removes its unit,
and LOST leaves it unmarked. -/
theorem test_roll_warm_then_outcome :
    let c : Carry := ⟨0, 0x100, [⟨255, [0xAA]⟩]⟩
    let s := offering (.card 9) (.carry c) (some 0) { busy with units := [⟨0, 255, [0xAA], true⟩, ⟨0, 0, [0xBB], false⟩] }
    let u := after (.rollWarmReceived 9 0) (after (.frameObserved .heard ⟨9, .every, .roll ⟨.warm, 0⟩⟩) s)
    (s.acts (s.entry 0).farSlot = true ∧ (s.entry 0).state.standing = true ∧ s.line.transmitter = .sending)
    ∧ ((u.entry 0).state = .pending ∧ u.units = s.units)
    ∧ (after (.carryOutcome .taken) u).units = [⟨0, 0, [0xBB], false⟩]
    ∧ (after (.carryOutcome .lost) u).units = [⟨0, 255, [0xAA], false⟩, ⟨0, 0, [0xBB], false⟩]
    ∧ (let t := after (.carryOutcome .busy) u; (t.entry 0).busy = 0 ∧ t.units.length = 2) := by decide +kernel

/-- R66 to R68: a slot clash past byte 3 finds the frame of this card withdrawn, and leaves nothing driven. -/
theorem test_clash_withdraws :
    let c : Carry := ⟨0, 0x100, [⟨255, [0xAA]⟩]⟩
    let s := offering (.card 9) (.carry c) (some 0) { busy with units := [⟨0, 255, [0xAA], true⟩] }
    let t := after (.frameObserved .heard ⟨4, .card 9, .carry c⟩) s
    (s.slnBits ≠ [] ∧ t.slnBits = [] ∧ t.line.transmitter = .silenced ∧ t.line.buffer = none
      ∧ t.units = [⟨0, 255, [0xAA], false⟩])
    ∧ after (.carryOutcome .taken) t = t := by decide +kernel

theorem test_ObserverTakesFrameHeard_met :
    let roll : Frame := ⟨11, .every, .roll ⟨.warm, 0xFFFFFF⟩⟩
    let cold : Frame := ⟨11, .every, .roll ⟨.cold, 0⟩⟩
    (busy.running = true ∧ roll.wf = true ∧ cold.wf = true ∧ roll.source ≠ busy.cardSlot)
    ∧ (CampaignSound busy ∧ SwitchSound busy ∧ BiddingSound busy ∧ LatchSound busy)
    ∧ ((busy.entry 4).state = .deferred ∧ (busy.entry 4).farSlot = roll.source)
    ∧ ¬ busy.actorTakes roll 4 ∧ busy.actorTakes cold 4 := by
  refine ⟨by decide +kernel, ⟨busy_campaign, busy_switch, busy_bidding, busy_latch⟩, by decide +kernel, ?_, ?_⟩
  · rintro ⟨-, ⟨_, h, -⟩ | ⟨_, -, h⟩ | ⟨_, h, -⟩⟩ <;> cases h
  · exact ⟨by decide +kernel, .inr (.inl ⟨0, rfl, rfl⟩)⟩

theorem test_SilencedCardsOnlyObserve_met :
    let f : Frame := ⟨4, .card 9, .drop ⟨1, .clash⟩⟩
    (busy.running = true ∧ f.wf = true ∧ f.source = busy.cardSlot) ∧ CampaignSound busy
    ∧ (after (.dropOutcome .taken) (offering (.card 9) (.drop ⟨1, .clash⟩) none busy)).line.completed = some f
    ∧ State.reset.active = false ∧ (powered .hold true busy).running = false := by
  exact ⟨by decide +kernel, busy_campaign, by decide +kernel, by decide, by decide⟩

/-! ### Witnesses: frames handed to the acting blocks -/

theorem test_RollReceived_met : busy.acts 9 = true ∧ dark.acts 9 = true ∧ gathering.acts 9 = true
    ∧ (busy.entry 1).farSlot = 9 ∧ (busy.entry 1).state.standing = true
    ∧ ¬ ((busy.entry 8).farSlot = 9 ∧ (busy.entry 8).state.standing = true) := by decide +kernel

theorem test_BidIsJudgedInOrder_met :
    (busy.acts 9 = true ∧ (bid 2 (busy.entry 2) 3 0).wf = true)
    ∧ (∀ i, busy.faces 0x102 30 i → (busy.entry i).role ≠ .far)
    ∧ (busy.faces 0x102 9 2 ∧ (busy.entry 2).role = .far
        ∧ ∀ j, busy.faces 0x102 9 j → (busy.entry j).role = .far → j = 2)
    ∧ (busy.faces 0x108 11 8 ∧ (busy.entry 8).role = .far ∧ (busy.entry 8).state = .failed)
    ∧ (bid 2 (busy.entry 1) 1 0).fingerprint ≠ (busy.entry 2).fingerprint
    ∧ busy.settings.limit (busy.entry 2).cls < max (min (60001 : BitVec 24).toNat 1048575) busy.supply.m
    ∧ max (min (60000 : BitVec 24).toNat 1048575) busy.supply.m ≤ busy.settings.limit (busy.entry 2).cls
    ∧ ((busy.entry 2).state = .pending ∧ busy.switch.highway = .present)
    ∧ (busy.entry 5).state = .checking ∧ (busy.entry 7).state = .parked ∧ (busy.entry 11).state = .live
    ∧ (let s := { gathering with supply := { gathering.supply with m := 0 } }
       s.faces 0x101 9 1 ∧ (s.entry 1).role = .far ∧ (s.entry 1).state = .pending ∧ s.switch.highway = .lost) := by
  unfold State.faces
  decide +kernel

theorem test_AnswerMovesOrigin_met :
    let a : Answer := ⟨0x103, 1, .match_, 3⟩
    (busy.acts 9 = true ∧ a.wf = true ∧ (∀ i, ¬ busy.faces 0x103 30 i) ∧ busy.facesAlone 0x103 9 3)
    ∧ ((busy.entry 3).role = .origin ∧ (busy.entry 3).state = .bidding ∧ (busy.entry 3).attempt = a.attempt)
    ∧ ((busy.entry 4).role = .origin ∧ (busy.entry 4).state = .deferred ∧ (busy.entry 4).attempt = 3)
    ∧ (busy.entry 3).attempt ≠ 2 ∧ busy.switch.highway = .present
    ∧ (busy.frontBefore 9 a = some 5 ∧ (busy.entry 3).key.toNat < 5)
    ∧ (busy.relink.arrival = .none ∧ a.verdict = .match_)
    ∧ (let s := { busy with switch := State.reset.switch }; s.facesAlone 0x103 9 3 ∧ s.switch.highway = .lost) := by
  unfold State.facesAlone State.faces
  decide +kernel

/-- `busy` after a first attempt of its PENDING origin. -/
def tried : State := busy.withEntry 1 { busy.entry 1 with attempt := 1 }

theorem test_LateTestIgnoresOrder_met :
    let a : Answer := ⟨0x103, 1, .matchParked, 3⟩
    (busy.acts 9 = true ∧ a.wf = true ∧ busy.relink.arrival = .none ∧ busy.facesAlone 0x103 9 3)
    ∧ ((busy.entry 3).role = .origin ∧ (busy.entry 3).state = .bidding ∧ (busy.entry 3).attempt = a.attempt)
    ∧ (a.verdict = .match_ ∨ a.verdict = .matchParked) ∧ CampaignSound busy := by
  refine ⟨?_, by decide +kernel, .inr rfl, busy_campaign⟩
  unfold State.facesAlone State.faces
  decide +kernel

theorem test_LateTestIgnoresOrder_met_pending_deferred :
    (tried.acts 9 = true ∧ (Answer.mk 0x101 1 .match_ 0x2001).wf = true ∧ tried.relink.arrival = .none
      ∧ tried.facesAlone 0x101 9 1 ∧ CampaignSound tried)
    ∧ ((tried.entry 1).role = .origin ∧ (tried.entry 1).state = .pending ∧ (tried.entry 1).attempt = 1)
    ∧ (busy.acts 11 = true ∧ (Answer.mk 0x104 3 .match_ 4).wf = true ∧ busy.facesAlone 0x104 11 4)
    ∧ ((busy.entry 4).role = .origin ∧ (busy.entry 4).state = .deferred ∧ (busy.entry 4).attempt = 3) := by
  have h : CampaignSound tried := by
    constructor
    case ended => exact fun h => absurd h.2.1 (by decide +kernel)
    all_goals decide +kernel
  refine ⟨⟨by decide +kernel, by decide, by decide +kernel, ?_, h⟩, by decide +kernel, ?_, by decide +kernel⟩ <;>
    unfold State.facesAlone State.faces <;> decide +kernel

theorem test_DropFailsEntry_met :
    (busy.acts 9 = true ∧ (Drop.mk 0x102 .cleared).wf = true ∧ ∀ i, ¬ busy.faces 0x102 30 i)
    ∧ (busy.facesAlone 0x102 9 2 ∧ (busy.entry 2).state ≠ .failed)
    ∧ (busy.facesAlone 0x108 11 8 ∧ (busy.entry 8).state = .failed) := by
  unfold State.facesAlone State.faces
  decide +kernel

theorem test_CarryIsTakenWholeOrNotAtAll_met :
    let c : Carry := ⟨0, 0x100, [⟨0, [1]⟩, ⟨128, [2]⟩]⟩
    let full := { busy with delivery := { busy.delivery with queue := List.replicate 31 ⟨0, 1, 0, [1], false⟩ } }
    (busy.acts 9 = true ∧ c.wf = true ∧ (∀ i, ¬ busy.faces 0x100 30 i) ∧ busy.facesAlone 0x100 9 0)
    ∧ ((busy.entry 0).state = .live ∧ c.units.length ≤ 32 - busy.delivery.queue.length)
    ∧ (full.facesAlone 0x100 9 0 ∧ ¬ c.units.length ≤ 32 - full.delivery.queue.length)
    ∧ ((busy.entry 8).state = .failed ∧ busy.facesAlone 0x108 11 8)
    ∧ (busy.facesAlone 0x102 9 2 ∧ (busy.entry 2).state = .pending) := by
  unfold State.facesAlone State.faces
  decide +kernel

/-- The three ranges of R155 at their ends: 0, 1, 127, 128 and 255 places from rx expected. -/
theorem test_UnitsAreJudgedInOrder_met :
    [10, 11, 137, 138, 9].map (fun q : Byte => (judgeUnit 0 1 (10, []) ⟨q, [1]⟩).1) = [11, 12, 138, 10, 10] := by decide

/-! ### Witnesses: outcomes -/

theorem test_BidOutcomeMovesEntry_met :
    let b : Bid := ⟨0x2001, 0x101, 2, 0, 640⟩
    let s := offering (.card 9) (.bid b) (some 1) calm
    (s.running = true ∧ s.line.buffer = some ⟨⟨4, .card 9, .bid b⟩, some 1, .sending⟩)
    ∧ ((s.entry 1).state = .pending ∧ (s.entry 1).role = .origin ∧ (s.entry 1).circuit = b.circuit
        ∧ (s.entry 1).farSlot = 9)
    ∧ b.attempt < 3 ∧ 3 ≤ (bid 1 (s.entry 1) 3 0).attempt
    ∧ (after .clearEntry (loaded [1] s)).line.buffer = some ⟨⟨4, .card 9, .bid b⟩, none, .sending⟩ := by decide +kernel

theorem test_ListsFollowOutcomes_met :
    let d : DropItem := ⟨0x123, 9, .clash, 3⟩
    let s := { calm with relink := { calm.relink with drops := [d] } }
    (offering (.card 9) (.answer ⟨1, 1, .match_, 0⟩) none s).line.buffer
        = some ⟨⟨4, .card 9, .answer ⟨1, 1, .match_, 0⟩⟩, none, .sending⟩
    ∧ ((offering (.card 9) (.drop ⟨0x123, .clash⟩) none s).line.buffer
          = some ⟨⟨4, .card 9, .drop ⟨0x123, .clash⟩⟩, none, .sending⟩
        ∧ s.relink.drops = d :: [] ∧ d.sends = 3)
    ∧ (offering .every (.roll ⟨.cold, 0⟩) none s).line.buffer = some ⟨⟨4, .every, .roll ⟨.cold, 0⟩⟩, none, .sending⟩ := by
  decide +kernel

theorem test_CarryOutcomeReleasesOrStrikes_met :
    let c : Carry := ⟨0, 0x100, [⟨255, [0xAA]⟩]⟩
    let s := offering (.card 9) (.carry c) (some 0)
      { busy with units := [⟨0, 255, [0xAA], true⟩, ⟨7, 255, [1, 2], false⟩, ⟨0, 0, [0xBB], false⟩] }
    (s.running = true ∧ s.line.buffer = some ⟨⟨4, .card 9, .carry c⟩, some 0, .sending⟩)
    ∧ ((∃ u ∈ s.units, u.inFlight = true) ∧ ∀ u ∈ s.units, u.inFlight = true → u.entry = 0)
    ∧ ((s.entry 0).state = .live ∧ (s.entry 0).noReceipt < 3 ∧ (s.entry 0).busy < 63)
    ∧ (let w := s.withEntry 0 { s.entry 0 with noReceipt := 3, busy := 63 }
       (w.entry 0).noReceipt = 3 ∧ (w.entry 0).busy = 63
         ∧ ((after (.carryOutcome .noReceipt) w).entry 0).state = .pending
         ∧ ((after (.carryOutcome .busy) w).entry 0).state = .pending)
    ∧ ∀ u ∈ busy.units, u.inFlight = false := by decide +kernel

/-! ### Witnesses: timers and the highway -/

theorem test_GatherCloseSortsPendingEntries_met :
    (gathering.running = true ∧ gathering.relink.campaign = .gather ∧ gathering.relink.gatherTimer = some 300)
    ∧ (let t := after .gatherClose gathering
       (List.range 6).map (fun i => ((t.table[i]?).map Entry.state))
         = [some .failed, some .failed, some .pending, some .deferred, some .pending, some .live]
       ∧ (t.entry 4).deadline = some 5300 ∧ t.relink.drops.map (·.circuit) = [0x100]) := by decide +kernel

theorem test_TimersAndDeadlinesRunOut_met :
    (busy.running = true ∧ busy.relink.settleTimer = .runsOutAt 200 ∧ busy.relink.campaign = .contend
      ∧ (busy.entry 1).state.relinking = true)
    ∧ (let s := { calm with table := State.reset.table }
       s.relink.settleTimer = .runsOutAt 200 ∧ ∀ i, (s.entry i).state.relinking = false)
    ∧ busy.relink.openBid = some ⟨0x103, 4, 9, 100⟩
    ∧ (busy.relink.answerTimer = some 110 ∧ (busy.entry 3).state = .bidding
        ∧ (∀ j, (busy.entry j).state = .bidding → j = 3) ∧ (busy.entry 3).attempt < 3)
    ∧ ((after .answerTimerExpiry (busy.withEntry 3 { busy.entry 3 with attempt := 3 })).entry 3).state = .deferred
    ∧ ((busy.entry 4).state = .deferred ∧ (busy.entry 4).deadline = some 700)
    ∧ ((busy.entry 2).state = .pending ∧ (busy.entry 2).role = .far ∧ (busy.entry 2).deadline = some 600) := by
  decide +kernel

theorem dark_switch : SwitchSound dark := by
  constructor
  case distinct =>
    have idle : ∀ k : Fin 4, dark.switch.checkers[k] = none := by decide +kernel
    exact fun j k c d hc => by simp [idle j] at hc
  all_goals (try unfold EntryState.awaitsCheck); decide +kernel

theorem test_SixteenSyncsMakeHighwayPresent_met :
    (dark.running = true ∧ dark.switch.highway = .lost ∧ dark.switch.runCount = 15) ∧ SwitchSound dark
    ∧ ([2043, 2044, 2052, 2053].map fun n => (after (.sync n (heardIn [])) dark).switch.highway)
        = [.lost, .present, .present, .lost]
    ∧ (State.reset.switch.highway = .lost ∧ State.reset.switch.runCount = 0) ∧ busy.switch.highway = .present := by
  exact ⟨by decide +kernel, dark_switch, by decide +kernel, by decide, by decide⟩

/-- A slot switch that is sound while PRESENT stays so at another place of its frame. -/
theorem inFrame_switch (frame : HighwayFrame) (slot : Nat) (s : State) (h : SwitchSound s)
    (hp : s.switch.highway = .present) : SwitchSound (inFrame frame slot s) where
  timed := by simp [inFrame, hp]
  lost := h.lost
  once := h.once
  apart := h.apart
  distinct := h.distinct
  waiting := h.waiting
  working := h.working
  checked := h.checked
  driven := h.driven
  idle := h.idle

/-- How many syncs are missing does not bear on the soundness of the slot switch. -/
theorem missing_switch (m : Nat) {s : State} (h : SwitchSound s) :
    SwitchSound { s with switch := { s.switch with missing := m } } :=
  ⟨h.timed, h.lost, h.once, h.apart, h.distinct, h.waiting, h.working, h.checked, h.driven, h.idle⟩

/-- R119, R123: slot 64 is entry 0's rx slot; entry 11's, slot 75, ended before, and keeps its sample. -/
theorem test_FrameCopiesRxSlots_met :
    let s := inFrame (heardIn [(64, 0x22), (75, 0x44)]) 62 { busy with switch := { busy.switch with missing := 1 } }
    (s.running = true ∧ s.switch.highway = .present ∧ s.switch.missing < 2) ∧ TableSound s ∧ SwitchSound s
    ∧ (s.switch.timing = some ⟨heardIn [(64, 0x22), (75, 0x44)], 62⟩ ∧ 62 ≤ 256)
    ∧ (let t := s.passTo 65; t.switch.inbound[0] = 0x22 ∧ t.switch.inbound[11] = 0xFF ∧ t.switch.outbound[0] = 0xFF)
    ∧ (let t := (inFrame (heardIn []) 0 busy).passTo 2; t.switch.outbound[0] = 0x11) := by
  exact ⟨by decide +kernel, by constructor <;> decide +kernel, inFrame_switch _ _ _ (missing_switch 1 busy_switch) rfl,
    ⟨rfl, by decide⟩, by decide +kernel, by decide +kernel⟩

/-- R123: an entry whose tx slot is its rx slot copies back its own outbound sample, where no other station drives it. -/
theorem test_own_sample_copied :
    let s := inFrame (heardIn []) 80 { busy with
      table := busy.table.set 0 { busy.entry 0 with rxSlot := 80, txSlot := 80 }
      switch := { busy.switch with outbound := busy.switch.outbound.set 0 0x5A } }
    s.passSlot.switch.inbound[0] = 0x5A
      ∧ (inFrame (heardIn [(80, 0x77)]) 80 s).passSlot.switch.inbound[0] = 0x77 := by decide +kernel

theorem test_ThirdMissingSyncParksEntries_met :
    (busy.running = true ∧ busy.switch.highway = .present ∧ busy.switch.missing = 2) ∧ SwitchSound busy
    ∧ TableSound busy ∧ (busy.switch.timing = some ⟨heardIn [], 250⟩ ∧ 250 ≤ 256) :=
  ⟨by decide, busy_switch, busy_table, rfl, by decide⟩

/-- R126 and R129: checker 0 reads its fourth $FF at slot 21, checker 1 is not armed, and a wrong reading is none. -/
theorem test_QuietCheckDecides_met :
    let s := inFrame (heardIn [(23, 0x3C)]) 20 busy
    (s.running = true ∧ s.switch.highway = .present) ∧ TableSound s ∧ SwitchSound s
    ∧ (s.switch.timing = some ⟨heardIn [(23, 0x3C)], 20⟩ ∧ 20 ≤ 256)
    ∧ (s.switch.checkers[(0 : Fin 4)] = some ⟨5, 3, true⟩ ∧ (s.entry 5).txSlot = 21)
    ∧ (s.switch.checkers[(1 : Fin 4)] = some ⟨6, 0, false⟩ ∧ s.switch.checkers[(2 : Fin 4)] = some ⟨7, 0, true⟩)
    ∧ [0xFF, 0x3C].map (fun r => ((after (.quietCheckResult 0 r) s).entry 5).state) = [.live, .checking]
    ∧ [0xFF, 0x3C].map (fun r => ((after (.quietCheckResult 1 r) s).entry 6).state) = [.joining, .joining]
    ∧ [0xFF, 0x3C].map (fun r => ((after (.quietCheckResult 2 r) s).entry 7).state) = [.parked, .failed] := by
  exact ⟨by decide +kernel, by constructor <;> decide +kernel, inFrame_switch _ _ _ busy_switch rfl,
    by decide +kernel⟩

/-- Section 7.7: the fourth $FF in the frame that the third missing sync ends is PASS before the loss: MATCH stays in
the list. -/
theorem test_check_before_the_loss :
    let s := busy.withEntry 5 { busy.entry 5 with txSlot := 255 }
    let t := after (.syncMissing (heardIn [])) (inFrame (heardIn []) 255 s)
    (t.entry 5).state = .parked ∧ t.relink.answers.map (·.verdict) = [.match_] := by decide +kernel

/-- R126: the check ends in the slot of its fourth $FF, and the index that waits takes the checker. -/
theorem test_check_ends_in_its_slot :
    let t := (inFrame (heardIn []) 21 busy).passSlot
    (t.entry 5).state = .live ∧ t.switch.checkers[(0 : Fin 4)] = some ⟨10, 0, false⟩ := by decide +kernel

/-- R64: a receipt stands for its own frame alone: in either order of its two halves, and not for a frame after it. -/
theorem test_receipt_ends :
    let a : Frame := ⟨9, .card 4, .drop ⟨1, .clash⟩⟩
    let b : Frame := ⟨9, .card 7, .drop ⟨1, .clash⟩⟩
    let receipt := fun (cs : List Instr) => (cs.foldl (fun s c => after c s) busy).line.receipt
    let acted := Instr.dropReceived 9 ⟨1, .clash⟩
    receipt [acted, .frameObserved .heard a] = some .taken
      ∧ receipt [.frameObserved .heard a, acted] = some .taken
      ∧ receipt [acted, .frameObserved .heard a, .frameObserved .heard b] = none
      ∧ receipt [acted, .frameObserved .heard a, .frameObserved .heard a] = none
      ∧ receipt [.frameObserved .heard a, acted, .frameObserved .heard a] = none
      ∧ receipt [acted, .frameObserved .heard { a with source := 4 }] = none := by decide +kernel

/-- R103 at the list's edge: 63 items leave room, 64 do not, and an item of the circuit and slot is replaced in place. -/
theorem test_answer_list_edges :
    let item := fun (n : Nat) => (⟨BitVec.ofNat 16 (n + 1), 9, 1, .match_, 0⟩ : AnswerItem)
    let new : AnswerItem := ⟨0x200, 9, 2, .refuseFailed, 5⟩
    (queueAnswerItem ((List.range 63).map item) new = (List.range 63).map item ++ [new])
      ∧ queueAnswerItem ((List.range 64).map item) new = (List.range 64).map item
      ∧ queueAnswerItem ((List.range 64).map item) { new with circuit := 2 }
        = [item 0, { new with circuit := 2 }] ++ ((List.range 64).map item).drop 2 := by decide +kernel

/-- R128: entry 6's check is withdrawn: its checker takes the head, and the others keep their counts. -/
theorem test_withdrawn : (busy.switch.withdraw 6).checkers
      = #v[some ⟨5, 3, true⟩, some ⟨10, 0, false⟩, some ⟨7, 0, true⟩, some ⟨9, 1, true⟩]
    ∧ (SlotSwitch.withdraw { busy.switch with checkQueue := [10, 3, 2] } 3).checkQueue = [10, 2] := by decide +kernel

/-! ### Witnesses: the port -/

theorem test_CommandsAreRefusedByModeAndCount_met :
    (powered .hold true busy).running = false ∧ (after .cardReset busy).port.crstLow = true
    ∧ (busy.running = true ∧ busy.port.crstLow = false ∧ busy.active = true) ∧ State.reset.active = false
    ∧ busy.port.params.length ∉ [12] ∧ (loaded (List.replicate 10 0) busy).port.params.length ∉ [2, 3, 4, 5, 6, 7, 8, 9]
    ∧ (after (.paramWrite 0) (loaded (List.replicate 12 0) busy)).port.overlength = true
    ∧ 0x13 ∉ Config.commandCodes := by decide +kernel

/-- `given` at each parameter list that a statement takes, in the mode it takes it in. -/
theorem test_given_met :
    (∀ ps ∈ ([[], [4], [0, 1, 2, 3], [0, 0, 0, 0, 0, 0, 0]] : List (List Byte)),
      (loaded ps State.reset).given ps ∧ (loaded ps State.reset).active = false)
    ∧ (∀ ps ∈ ([[], [0], [63], [64], [0, 1], [0, 1, 2, 3, 4, 5, 6, 7, 8], List.replicate 12 0] : List (List Byte)),
      (loaded ps busy).given ps ∧ (loaded ps busy).active = true) := by
  unfold State.given
  decide +kernel

theorem test_WritesNameTheirCommands_met : (powered .hold true busy).running = false
    ∧ (after .cardReset busy).port.crstLow = true ∧ 2 ≤ (2 : BitVec 3).toNat
    ∧ [0x0F, 0x10, 0x44, 0x45].map (writeAccess 0)
      = [.unknownCommand 0x0F, .setTiming, .readFigures, .unknownCommand 0x45] := by decide +kernel

/-- The limits of R169, each value one below its least, at it, at its most and one above. -/
theorem test_SetTimingClampsEachValue_met :
    results .setTiming [0x00, 0x13, 0x01, 0x00, 0x63, 0x00, 0x09] State.reset
        = [0x02, 0x00, 0x14, 0x02, 0x00, 0x64, 0x00, 0x0A]
    ∧ results .setTiming [0x00, 0x14, 0x02, 0x00, 0x64, 0x00, 0x0A] State.reset
        = [0x01, 0x00, 0x14, 0x02, 0x00, 0x64, 0x00, 0x0A]
    ∧ results .setTiming [0x07, 0xD0, 0x32, 0xEA, 0x60, 0x03, 0xE8] State.reset
        = [0x01, 0x07, 0xD0, 0x32, 0xEA, 0x60, 0x03, 0xE8]
    ∧ results .setTiming [0x07, 0xD1, 0x33, 0xEA, 0x61, 0x03, 0xE9] State.reset
        = [0x02, 0x07, 0xD0, 0x32, 0xEA, 0x60, 0x03, 0xE8] := by decide +kernel

theorem test_SetClassLimitAndPacking_met :
    results .setClassLimit [7, 0x0F, 0xFF, 0xFF] State.reset = [1, 7, 0x0F, 0xFF, 0xFF]
    ∧ results .setClassLimit [7, 0x10, 0, 0] State.reset = [2, 7, 0x0F, 0xFF, 0xFF]
    ∧ results .setClassLimit [8, 0, 0, 0] State.reset = [4, 1]
    ∧ [0, 1, 4, 5].map (fun k : Byte => results .setPacking [k] State.reset) = [[2, 1], [1, 1], [1, 4], [2, 4]] := by
  decide +kernel

/-- R7 in its order: each byte one past its range, then an index in use, a circuit, a tx slot, a channel held. -/
theorem test_WriteEntryTestsThenWrites_met :
    let good : List Byte := [12, 0x02, 0x00, 1, 31, 63, 0xF0, 0, 7, 0x1F, 0xFF, 0]
    let with_ := fun (n : Nat) (b : Byte) => results .writeEntry (good.set n b) busy
    [with_ 0 64, with_ 1 0, with_ 3 2, with_ 4 32, with_ 5 64, with_ 8 8, with_ 9 0x20]
      = [[4, 1], [4, 2], [4, 4], [4, 5], [4, 6], [4, 9], [4, 10]]
    ∧ [with_ 0 11, with_ 6 27, with_ 5 11] = [[5, 1, 11], [5, 3, 11], [5, 4, 11]]
    ∧ results .writeEntry ((good.set 1 0x01).set 2 0x0B) busy = [5, 2, 11]
    ∧ (results .writeEntry good busy).take 2 = [1, 3]
    ∧ dark.relink.campaign = .steady ∧ dark.switch.highway = .lost ∧ gathering.relink.campaign = .gather := by
  decide +kernel

theorem test_ClearAndSubmit_met :
    ((busy.entry 63).state = .empty ∧ (busy.entry 8).state = .failed ∧ (busy.entry 8).failure = some ⟨.absent, none⟩
      ∧ (busy.entry 0).state.standing = true ∧ busy.units.length < 96)
    ∧ (let full := { busy with units := List.replicate 96 ⟨0, 0, [1], false⟩ }
       96 ≤ full.units.length ∧ results .submitUnit [0, 1] full = [7]
         ∧ results .submitUnit [0, 1] { full with units := full.units.drop 1 } = [1, 1, 96]) := by decide +kernel

theorem test_ReadCommandsShowState_met :
    busy.entry 63 = Entry.cleared ∧ (busy.entry 4).state ≠ .empty
    ∧ results .readEntry [4] busy
        = [1, 4, 5, 0x01, 0x04, 0, 11, 4, 20, 68, 0, 0, 4, 0, 4] ++ [hiByte (busy.entry 4).fingerprint,
            loByte (busy.entry 4).fingerprint] ++ [0, 0, 3, 3, 0, 0, 0, 0x02, 0x58, 0, 0]
    ∧ results .readRoster [] gathering = [1, 0, 0, 2, 0] ∧ results .readRoster [9] gathering = [1, 9, 1, 2, 0, 0x02, 0x80]
    ∧ results .readRoster [32] gathering = [4, 1]
    ∧ (∀ i, (busy.entry i).state = .bidding → i = 3) ∧ ∀ i, (calm.entry i).state ≠ .bidding := by decide +kernel

theorem test_LatchAndMaskCommands_met : results .setAttention [7] busy = [1, 7] ∧ results .setAttention [8] busy = [4, 1]
    ∧ results .resetLatch [] { busy with line := { busy.line with stuck := true } } = [1, 0x81] := by decide +kernel

/-- R24 at its edges: the last T short of saturation, the least and the greatest A. -/
theorem test_FiguresAreReckonedExactly_met : (16777214 < 16777215 ∧ 1024 ≤ 1024 ∧ 4095 ≤ 4095)
    ∧ episodeFigure 16777214 1024 = 1048575 ∧ episodeFigure 16777214 4095 = 262208 ∧ episodeFigure 8 1024 = 1
    ∧ episodeFigure 7 1024 = 0 := by decide

theorem test_AccessesToThePort_met :
    (powered .hold true busy).running = false ∧ (busy.running = true ∧ busy.port.crstLow = false)
    ∧ (loaded (List.replicate 11 0) busy).port.params.length < 12 ∧ 12 ≤ (loaded (List.replicate 12 0) busy).port.params.length
    ∧ (let s := after .readFigures busy; s.port.results[s.port.resultPos]? = some 1)
    ∧ (busy.port.results.length ≤ busy.port.resultPos ∧ busy.port.noticeBuffer = none ∧ busy.port.noticePos = 0)
    ∧ (let n : Notice := ⟨.joined, 3, 1, 0⟩
       let s := { busy with port := { busy.port with noticeBuffer := some n, noticePos := 3 } }
       s.port.noticeBuffer = some n ∧ s.port.noticePos = 3) := by decide +kernel

theorem test_DeliveryServesRecordsAndLocks_met :
    let r : DeliveryRecord := ⟨0, 0x100, 38, [1, 2, 3], false⟩
    let g : DeliveryRecord := ⟨0, 0x100, 40, [1], true⟩
    let s := { busy with delivery := ⟨[g], some r, 8⟩ }
    (busy.delivery.buffer = none ∧ busy.delivery.position = 0) ∧ (after .cardReset busy).port.crstLow = true
    ∧ (s.delivery.buffer = some r ∧ (after .deliveryRead s).port.dataOut = 3
        ∧ (after .deliveryRead s).delivery = ⟨[g], some g, 0⟩)
    ∧ (let d := { busy with delivery := ⟨[g, r], some g, 3⟩ }
       (after .clearCondition d).port.results = [1, 0, 40] ∧ (after .clearCondition d).delivery = ⟨[r], none, 0⟩)
    ∧ results .clearCondition [] { busy with delivery := ⟨[r, g], none, 0⟩ } = [8]
    ∧ results .clearCondition [] busy = [8] := by decide +kernel

theorem test_CardResetReachesPortAlone_met :
    (busy.running = true ∧ busy.port.crstLow = false)
    ∧ (let s := after .cardReset (powered .wake true busy)
       s.supply.power = .wake ∧ s.supply.retention = true ∧ s.active = true ∧ s.port.crstEdge = true
         ∧ s.port.crstLow = true)
    ∧ (let s := after .cardReset (powered .wake true State.reset)
       s.supply.power = .wake ∧ s.supply.retention = true ∧ s.active = false ∧ s.port.crstEdge = true) := by
  decide +kernel

theorem test_PinsFollowState_met : TableSound busy ∧ busy.running = true ∧ busy.switch.highway = .present
    ∧ (busy.entry 0).state = .live ∧ dark.switch.highway = .lost
    ∧ (after (.holdEntry .sending false) (offering (.card 9) (.drop ⟨1, .clash⟩) none busy)).line.drive = .abort
    ∧ ∀ i, (busy.entry i).state = .live → (busy.entry i).txSlot ≠ 17 :=
  ⟨busy_table, by decide +kernel⟩

/-- R68: the premises of the two clauses on a silent line. -/
theorem test_silent_line_met :
    (FramesSound { busy with line := { busy.line with silenced := true } }) ∧ (ConfigSound State.reset ∧ State.reset.active = false) := by
  refine ⟨?_, ?_, rfl⟩
  · constructor
    case buffer => exact fun _ h => nomatch h
    case completed => exact fun _ h => nomatch h
    all_goals decide +kernel
  · constructor <;> decide +kernel

theorem test_HalvesShareKeyAndFingerprint_met :
    let e : Entry := { Entry.cleared with circuit := 0x123, farSlot := 9, txSlot := 0x2A, rxSlot := 0x57, cls := 1, ordinal := 16 }
    let f : Entry := { e with role := .far, farSlot := 4, txSlot := 0x57, rxSlot := 0x2A }
    (e.role = .origin ∧ f.role = .far ∧ e.circuit = f.circuit ∧ e.farSlot = 9 ∧ f.farSlot = 4 ∧ e.txSlot = f.rxSlot
      ∧ e.rxSlot = f.txSlot ∧ e.cls = f.cls ∧ e.ordinal = f.ordinal)
    ∧ fingerprintOf 4 e = 0xB7C3 ∧ fingerprintOf 9 f = 0xB7C3 := by decide +kernel

end Sys2Proof.Tests
end

/-! Proofs about the Delivery Unit: a CARRY as it is taken (R153), and the judgement of its units (R155). -/

namespace Sys2Proof.Machine

/-! ### What a receipt leaves unchanged -/

@[simp] theorem State.giveReceipt_entry (s : State) (f : Frame) (r : Option Receipt) (i : Index) :
    (s.giveReceipt f r).entry i = s.entry i := by
  rw [State.giveReceipt_eq]; rfl

@[simp] theorem State.giveReceipt_delivery (s : State) (f : Frame) (r : Option Receipt) :
    (s.giveReceipt f r).delivery = s.delivery := by
  rw [State.giveReceipt_eq]; rfl

/-! ### The entry that a CARRY finds (R5) -/

theorem State.entryFacing_of_facesAlone {s : State} {circuit : Circuit} {source : CardSlot} {i : Index}
    (h : s.facesAlone circuit source i) : s.entryFacing circuit source = some i := by
  obtain ⟨⟨hstate, hcircuit, hfar⟩, alone⟩ := h
  refine s.findEntry_unique _ i (by simp [hstate, hcircuit, hfar]) fun j hj => alone j ?_
  simpa [State.faces, and_assoc] using hj

theorem EntryState.agreed_iff (st : EntryState) : st.agreed = true ↔ st = .joining ∨ st = .live ∨ st = .parked := by
  cases st <;> simp [EntryState.agreed]

/-! ### A CARRY taken (R153) -/

theorem Carry.units_length_pos_of_wf {c : Carry} (h : c.wf = true) : 1 ≤ c.units.length := by
  simp only [Carry.wf, Bool.and_eq_true, decide_eq_true_eq] at h
  obtain ⟨⟨⟨hpos, -⟩, -⟩, -⟩ := h
  exact hpos

theorem State.carryFor_of_agreed_of_fits (s : State) (f : Frame) {i : Index} {us : List SignalUnit}
    (hagreed : (s.entry i).state.agreed = true) (hfits : us.length + s.delivery.queue.length ≤ Config.deliveryPlaces) :
    s.carryFor f i us = (s.giveReceipt f (some .taken)).judgeUnits i us := by
  have hfailed : (s.entry i).state ≠ .failed := by
    intro h; simp [h, EntryState.agreed] at hagreed
  unfold State.carryFor
  rw [if_neg hfailed, if_pos ⟨hagreed, hfits⟩]

theorem exec_carryReceived_of_facesAlone {s : State} {source : CardSlot} {c : Carry} {i : Index}
    (hacts : s.acts source = true) (hwf : c.wf = true) (halone : s.facesAlone c.circuit source i) :
    exec (.carryReceived source c) s = .next (s.carryFor (s.frameToMe source (.carry c)) i c.units) := by
  show execCarryReceived source c s = _
  unfold execCarryReceived
  rw [if_pos ⟨hacts, hwf⟩, State.entryFacing_of_facesAlone halone]

/-- Units judged leave in the entry's rx expected and in the queue what the judgement of one after the other gives. -/
theorem State.judgeUnits_result (s : State) (i : Index) (us : List SignalUnit) :
    (((s.judgeUnits i us).entry i).rxExpected, (s.judgeUnits i us).delivery.queue)
      = us.foldl (judgeUnit i (s.entry i).circuit) ((s.entry i).rxExpected, s.delivery.queue) := by
  simp [State.judgeUnits]

/-! ### One unit judged (R155) -/

/-- How many places, modulo 256, a sequence lies after another. -/
def placesAfter (sequence rx : Byte) : Nat := (sequence.toNat + 256 - rx.toNat) % 256

theorem sub_toNat_eq_placesAfter (sequence rx : Byte) : (sequence - rx).toNat = placesAfter sequence rx := by
  unfold placesAfter
  bv_omega

section
variable (i : Index) (circuit : Circuit) {rx : Byte} (queue : List DeliveryRecord) {u v : SignalUnit}

theorem judgeUnit_eq : judgeUnit i circuit (rx, queue) u =
    if placesAfter u.sequence rx = 0 then (rx + 1, queue ++ [⟨i, circuit, u.sequence, u.content, false⟩])
    else if placesAfter u.sequence rx ≤ 127 then
      (u.sequence + 1, queue ++ [⟨i, circuit, u.sequence, u.content, true⟩])
    else (rx, queue) := by
  rw [← sub_toNat_eq_placesAfter]
  rfl

theorem judgeUnit_expected (h : placesAfter u.sequence rx = 0) :
    judgeUnit i circuit (rx, queue) u = (rx + 1, queue ++ [⟨i, circuit, u.sequence, u.content, false⟩]) := by
  rw [judgeUnit_eq, if_pos h]

theorem judgeUnit_ahead (hlo : 1 ≤ placesAfter u.sequence rx) (hhi : placesAfter u.sequence rx ≤ 127) :
    judgeUnit i circuit (rx, queue) u = (u.sequence + 1, queue ++ [⟨i, circuit, u.sequence, u.content, true⟩]) := by
  rw [judgeUnit_eq, if_neg (by omega), if_pos hhi]

theorem judgeUnit_duplicate (h : 128 ≤ placesAfter u.sequence rx) :
    judgeUnit i circuit (rx, queue) u = (rx, queue) := by
  rw [judgeUnit_eq, if_neg (by omega), if_neg (by omega)]

/-- Once a unit ahead has moved rx expected past it, it and every sequence it skipped lie in the duplicates' half. -/
theorem placesAfter_skipped {skipped ahead : Byte} (hhi : placesAfter ahead rx ≤ 127)
    (hle : placesAfter skipped rx ≤ placesAfter ahead rx) : 128 ≤ placesAfter skipped (ahead + 1) := by
  unfold placesAfter at *
  bv_omega

theorem judgeUnit_skipped (hlo : 1 ≤ placesAfter u.sequence rx) (hhi : placesAfter u.sequence rx ≤ 127)
    (hle : placesAfter v.sequence rx ≤ placesAfter u.sequence rx) :
    judgeUnit i circuit (judgeUnit i circuit (rx, queue) u) v = judgeUnit i circuit (rx, queue) u := by
  rw [judgeUnit_ahead i circuit queue hlo hhi]
  exact judgeUnit_duplicate i circuit _ (placesAfter_skipped hhi hle)

end

/-- A CARRY that finds one agreed entry and room is judged against that entry, unit after unit. -/
theorem exec_carryReceived_judges {s : State} {source : CardSlot} {c : Carry} {i : Index}
    (hacts : s.acts source = true) (hwf : c.wf = true) (halone : s.facesAlone c.circuit source i)
    (hagreed : (s.entry i).state = .joining ∨ (s.entry i).state = .live ∨ (s.entry i).state = .parked)
    (hfits : c.units.length ≤ 32 - s.delivery.queue.length) :
    ∃ t, exec (.carryReceived source c) s = .next t
      ∧ ((t.entry i).rxExpected, t.delivery.queue)
          = c.units.foldl (judgeUnit i c.circuit) ((s.entry i).rxExpected, s.delivery.queue) := by
  have hroom : c.units.length + s.delivery.queue.length ≤ Config.deliveryPlaces := by
    have hpos := Carry.units_length_pos_of_wf hwf
    have hplaces : Config.deliveryPlaces = 32 := rfl
    omega
  obtain ⟨-, hcircuit, -⟩ := halone.1
  refine ⟨_, exec_carryReceived_of_facesAlone hacts hwf halone, ?_⟩
  rw [State.carryFor_of_agreed_of_fits s _ ((EntryState.agreed_iff _).2 hagreed) hroom, State.judgeUnits_result,
    State.giveReceipt_entry, State.giveReceipt_delivery, hcircuit]

/-- Settles O26: the execution of a CARRY folds `judgeUnit` over its units, and `judgeUnit` is told by its three ranges. -/
theorem unitsAreJudgedInOrder : Obligations.UnitsAreJudgedInOrder := by
  unfold Obligations.UnitsAreJudgedInOrder
  refine ⟨fun _ _ _ _ => exec_carryReceived_judges, fun i circuit rx queue u => ⟨?_, ?_, ?_⟩,
    fun i circuit rx queue u v => ?_⟩
  · exact judgeUnit_expected i circuit queue
  · exact judgeUnit_ahead i circuit queue
  · exact judgeUnit_duplicate i circuit queue
  · exact judgeUnit_skipped i circuit queue

end Sys2Proof.Machine

/-! Proofs about the Card Port's configuration: SET TIMING (R169), SET CLASS LIMIT (R170) and SET PACKING (R171). -/

namespace Sys2Proof.Machine

/-! ### A command taken, and its parameter count (R166, R167) -/

theorem State.takesCommands_of_running {s : State} (hrun : s.running = true) (hcrst : s.port.crstLow = false) :
    s.takesCommands = true := by
  simp [State.takesCommands, hrun, hcrst]

theorem State.given.takesCommands {s : State} {ps : List Byte} (h : s.given ps) : s.takesCommands = true := by
  obtain ⟨hrun, hcrst, -, -⟩ := h
  exact State.takesCommands_of_running hrun hcrst

theorem State.given.params_eq {s : State} {ps : List Byte} (h : s.given ps) : s.port.params = ps := by
  obtain ⟨-, -, hparams, -⟩ := h
  exact hparams

theorem State.given.paramCount_eq {s : State} {ps : List Byte} (h : s.given ps) : s.port.paramCount = ps.length := by
  obtain ⟨-, -, hparams, hlong⟩ := h
  simp [CardPort.paramCount, hparams, hlong]

/-- The overlength mark counts as 13, which is no count that a command asks for. -/
theorem CardPort.paramCount_ne {p : CardPort} {n : Nat} (hn : n ≤ Config.paramPlaces)
    (h : p.params.length ≠ n ∨ p.overlength = true) : p.paramCount ≠ n := by
  unfold CardPort.paramCount
  split
  · omega
  · next hlong => exact h.resolve_right hlong

/-! ### Numbers and their bytes -/

@[simp] theorem paramByte_one (b : Byte) (bs : List Byte) : paramByte (b :: bs) 1 = b := rfl

theorem natOfBytes_two (b1 b0 : Byte) : natOfBytes [b1, b0] = b1.toNat * 256 + b0.toNat := by
  simp [natOfBytes]

theorem natOfBytes_three (b2 b1 b0 : Byte) :
    natOfBytes [b2, b1, b0] = b2.toNat * 65536 + b1.toNat * 256 + b0.toNat := by
  simp only [natOfBytes, List.foldl_cons, List.foldl_nil]
  omega

theorem byteOf_toNat (b : Byte) : byteOf b.toNat = b := by
  simp [byteOf]

theorem bytes24_natOfBytes (b2 b1 b0 : Byte) : bytes24 (natOfBytes [b2, b1, b0]) = [b2, b1, b0] := by
  rw [natOfBytes_three]
  have high : byteOf ((b2.toNat * 65536 + b1.toNat * 256 + b0.toNat) / 65536) = b2 := by unfold byteOf; bv_omega
  have middle : byteOf ((b2.toNat * 65536 + b1.toNat * 256 + b0.toNat) / 256) = b1 := by unfold byteOf; bv_omega
  have low : byteOf (b2.toNat * 65536 + b1.toNat * 256 + b0.toNat) = b0 := by unfold byteOf; bv_omega
  rw [bytes24, high, middle, low]

/-! ### A value moved into its range -/

theorem clamp_eq_self_iff {low high v : Nat} (h : low ≤ high) : clamp low high v = v ↔ low ≤ v ∧ v ≤ high := by
  unfold clamp
  omega

theorem clamp_of_lt {low high v : Nat} (h : v < low) : clamp low high v = low := by
  unfold clamp
  omega

theorem clamp_of_gt {low high v : Nat} (h : low ≤ high) (hv : high < v) : clamp low high v = high := by
  unfold clamp
  omega

section
variable {α : Type} [BEq α] [LawfulBEq α] {stored given : α}

theorem doneOrClamped_eq_done_iff : doneOrClamped (stored != given) = rDone ↔ stored = given := by
  by_cases h : stored = given
  · simp [doneOrClamped, h]
  · simp [doneOrClamped, h, rDone, rClamped]

theorem doneOrClamped_of_ne (h : stored ≠ given) : doneOrClamped (stored != given) = rClamped := by
  simp [doneOrClamped, h]

end

theorem doneOrClamped_cases (moved : Bool) : doneOrClamped moved = rDone ∨ doneOrClamped moved = rClamped := by
  cases moved
  · exact .inl rfl
  · exact .inr rfl

/-! ### SET TIMING (R169) -/

theorem timingGiven_bytes (g1 g0 w p1 p0 q1 q0 : Byte) : timingGiven [g1, g0, w, p1, p0, q1, q0]
    = (g1.toNat * 256 + g0.toNat, w.toNat, p1.toNat * 256 + p0.toNat, q1.toNat * 256 + q0.toNat) := by
  simp [timingGiven, paramWord, paramByte, natOfBytes_two]

theorem timingStored_eq_self_iff (g w p q : Nat) : timingStored (g, w, p, q) = (g, w, p, q) ↔
    20 ≤ g ∧ g ≤ 2000 ∧ 2 ≤ w ∧ w ≤ 50 ∧ 100 ≤ p ∧ p ≤ 60000 ∧ 10 ≤ q ∧ q ≤ 1000 := by
  simp only [timingStored, Prod.mk.injEq, clamp_eq_self_iff (show 20 ≤ 2000 by decide),
    clamp_eq_self_iff (show 2 ≤ 50 by decide), clamp_eq_self_iff (show 100 ≤ 60000 by decide),
    clamp_eq_self_iff (show 10 ≤ 1000 by decide), and_assoc]

theorem exec_setTiming_of_badCount {s : State} (htakes : s.takesCommands = true) (hmode : s.active = false)
    (hcount : s.port.paramCount ≠ 7) : exec .setTiming s = .next (s.answering [0x04, 0x00]) := by
  show execSetTiming s = _
  rw [execSetTiming, if_pos htakes, State.setTimingCmd, if_neg (by simp [hmode]), if_pos hcount]
  rfl

/-- SET TIMING with its seven bytes, told by the four values given and the four stored. -/
theorem exec_setTiming_of_given {s : State} {ps : List Byte} (hgiven : s.given ps) (hlength : ps.length = 7)
    (hmode : s.active = false) {g w p q : Nat} (hstored : timingStored (timingGiven ps) = (g, w, p, q)) :
    exec .setTiming s = .next { s with
      port := { s.port with settings := { s.settings with g := g, w := w, p := p, q := q } }.answered
        (doneOrClamped (timingStored (timingGiven ps) != timingGiven ps)
          :: (bytes16 g ++ [byteOf w] ++ bytes16 p ++ bytes16 q)) } := by
  show execSetTiming s = _
  rw [execSetTiming, if_pos hgiven.takesCommands, State.setTimingCmd, if_neg (by simp [hmode]),
    if_neg (by simp [hgiven.paramCount_eq, hlength])]
  simp only [hgiven.params_eq, hstored, State.leaveResult_eq]
  rfl

/-- Settles O38: the command stores `timingStored` of what is given, and reports DONE where that moves nothing. -/
theorem setTimingClampsEachValue : Obligations.SetTimingClampsEachValue := by
  unfold Obligations.SetTimingClampsEachValue
  refine ⟨fun s g1 g0 w p1 p0 q1 q0 hgiven hmode g w' p q hg hw hp hq => ?_, fun s hrun hcrst hmode hcount => ?_⟩
  · have hstored : timingStored (timingGiven [g1, g0, w, p1, p0, q1, q0]) = (g, w', p, q) := by
      rw [timingGiven_bytes, hg, hw, hp, hq]
      simp only [timingStored, clamp, Nat.min_comm]
    refine ⟨_, exec_setTiming_of_given hgiven rfl hmode hstored, ?_, doneOrClamped_cases _⟩
    rw [timingGiven_bytes]
    exact doneOrClamped_eq_done_iff.trans (timingStored_eq_self_iff _ _ _ _)
  · exact exec_setTiming_of_badCount (State.takesCommands_of_running hrun hcrst) hmode
      (CardPort.paramCount_ne (by decide) hcount)

/-! ### SET CLASS LIMIT (R170) -/

theorem Settings.limit_setLimit (g : Settings) (cls d : BitVec 3) (v : Nat) :
    (g.setLimit cls v).limit d = if d.toNat = cls.toNat then v else g.limit d := by
  simp [Settings.limit, Settings.setLimit, Vector.getElem_set, eq_comm]

/-- What SET CLASS LIMIT reports: the limit given, or the cap with CLAMPED. -/
theorem classLimit_report (c l2 l1 l0 : Byte) :
    [doneOrClamped (min (natOfBytes [l2, l1, l0]) Config.figureCap != natOfBytes [l2, l1, l0]), c]
        ++ bytes24 (min (natOfBytes [l2, l1, l0]) Config.figureCap)
      = if natOfBytes [l2, l1, l0] ≤ Config.figureCap then [0x01, c, l2, l1, l0] else [0x02, c, 0x0F, 0xFF, 0xFF] := by
  split
  · next hle =>
    rw [Nat.min_eq_left hle, doneOrClamped_eq_done_iff.2 rfl, bytes24_natOfBytes]
    rfl
  · next hgt =>
    have hcap : Config.figureCap < natOfBytes [l2, l1, l0] := Nat.lt_of_not_le hgt
    rw [Nat.min_eq_right hcap.le, doneOrClamped_of_ne hcap.ne]
    rfl

theorem exec_setClassLimit_of_badCount {s : State} (htakes : s.takesCommands = true) (hmode : s.active = false)
    (hcount : s.port.paramCount ≠ 4) : exec .setClassLimit s = .next (s.answering [0x04, 0x00]) := by
  show execSetClassLimit s = _
  rw [execSetClassLimit, if_pos htakes, State.setClassLimitCmd, if_neg (by simp [hmode]), if_pos hcount]
  rfl

section
variable {s : State} {c l2 l1 l0 : Byte} (hgiven : s.given [c, l2, l1, l0]) (hmode : s.active = false)
include hgiven hmode

theorem exec_setClassLimit_of_badClass (hclass : 7 < c.toNat) :
    exec .setClassLimit s = .next (s.answering [0x04, 0x01]) := by
  show execSetClassLimit s = _
  rw [execSetClassLimit, if_pos hgiven.takesCommands, State.setClassLimitCmd, if_neg (by simp [hmode]),
    if_neg (by simp [hgiven.paramCount_eq]), hgiven.params_eq, paramByte_one, if_pos hclass]
  rfl

theorem exec_setClassLimit_of_given (hclass : c.toNat ≤ 7) :
    exec .setClassLimit s = .next { s with
      port := { s.port with
        settings := s.settings.setLimit (c.setWidth 3) (min (natOfBytes [l2, l1, l0]) Config.figureCap) }.answered
        (if natOfBytes [l2, l1, l0] ≤ Config.figureCap then [0x01, c, l2, l1, l0]
          else [0x02, c, 0x0F, 0xFF, 0xFF]) } := by
  show execSetClassLimit s = _
  rw [execSetClassLimit, if_pos hgiven.takesCommands, State.setClassLimitCmd, if_neg (by simp [hmode]),
    if_neg (by simp [hgiven.paramCount_eq]), hgiven.params_eq, paramByte_one,
    if_neg (Nat.not_lt.2 hclass), ← classLimit_report]
  rfl

end

/-! ### SET PACKING (R171) -/

theorem exec_setPacking_of_badCount {s : State} (htakes : s.takesCommands = true) (hmode : s.active = false)
    (hcount : s.port.paramCount ≠ 1) : exec .setPacking s = .next (s.answering [0x04, 0x00]) := by
  show execSetPacking s = _
  rw [execSetPacking, if_pos htakes, State.setPackingCmd, if_neg (by simp [hmode]), if_pos hcount]
  rfl

theorem exec_setPacking_of_given {s : State} {k : Byte} (hgiven : s.given [k]) (hmode : s.active = false)
    {stored : Nat} (hstored : clamp 1 4 k.toNat = stored) :
    exec .setPacking s = .next { s with
      port := { s.port with settings := { s.settings with k := stored } }.answered
        [doneOrClamped (stored != k.toNat), byteOf stored] } := by
  show execSetPacking s = _
  rw [execSetPacking, if_pos hgiven.takesCommands, State.setPackingCmd, if_neg (by simp [hmode]),
    if_neg (by simp [hgiven.paramCount_eq]), hgiven.params_eq, ← hstored]
  rfl

theorem exec_setPacking_moved {s : State} {k : Byte} (hgiven : s.given [k]) (hmode : s.active = false)
    {stored : Nat} (hstored : clamp 1 4 k.toNat = stored) (hmoved : stored ≠ k.toNat) :
    exec .setPacking s = .next { s with
      port := { s.port with settings := { s.settings with k := stored } }.answered [0x02, byteOf stored] } := by
  rw [exec_setPacking_of_given hgiven hmode hstored, doneOrClamped_of_ne hmoved]
  rfl

theorem exec_setPacking_inRange {s : State} {k : Byte} (hgiven : s.given [k]) (hmode : s.active = false)
    (hlow : 1 ≤ k.toNat) (hhigh : k.toNat ≤ 4) :
    exec .setPacking s = .next { s with
      port := { s.port with settings := { s.settings with k := k.toNat } }.answered [0x01, k] } := by
  have hstored : clamp 1 4 k.toNat = k.toNat := (clamp_eq_self_iff (by decide)).2 ⟨hlow, hhigh⟩
  rw [exec_setPacking_of_given hgiven hmode hstored, doneOrClamped_eq_done_iff.2 rfl, byteOf_toNat]
  rfl

/-- Settles O39: the class named decides between refusal and storing, and the stored value between DONE and CLAMPED. -/
theorem setClassLimitAndPacking : Obligations.SetClassLimitAndPacking := by
  unfold Obligations.SetClassLimitAndPacking
  refine ⟨fun s c l2 l1 l0 hgiven hmode => ?_, fun s k hgiven hmode => ⟨?_, fun hzero => ?_, fun habove => ?_⟩,
    fun s hrun hcrst hmode => ⟨fun hcount => ?_, fun hcount => ?_⟩⟩
  · dsimp only
    rw [← natOfBytes_three]
    refine ⟨exec_setClassLimit_of_badClass hgiven hmode,
      fun hclass => ⟨_, exec_setClassLimit_of_given hgiven hmode hclass, fun d => ?_, rfl⟩⟩
    have hnamed : (c.setWidth 3).toNat = c.toNat := by simp; omega
    rw [← hnamed]
    exact Settings.limit_setLimit s.settings (c.setWidth 3) d _
  · exact exec_setPacking_inRange hgiven hmode
  · subst hzero
    exact exec_setPacking_moved hgiven hmode (clamp_of_lt (by decide)) (by decide)
  · exact exec_setPacking_moved hgiven hmode (clamp_of_gt (by decide) habove) (by omega)
  · exact exec_setClassLimit_of_badCount (State.takesCommands_of_running hrun hcrst) hmode
      (CardPort.paramCount_ne (by decide) hcount)
  · exact exec_setPacking_of_badCount (State.takesCommands_of_running hrun hcrst) hmode
      (CardPort.paramCount_ne (by decide) hcount)

end Sys2Proof.Machine

/-! What a command can do, said once: every command is a chain of the moves below, each a closed form with the facts
that it may rely on. The rules of every moment (O53 to O60) are then kept move by move. -/

namespace Sys2Proof.Machine

/-! ### What the moves rely on -/

/-- The part is in ACTIVE mode, or holds an entry, which it does not in CONFIG mode (R19). -/
def State.inUse (s : State) : Prop := s.active = true ∨ ∃ i, (s.entry i).state ≠ .empty

/-- The Card Port's lists and read positions are within their ranges (R166, R168, R176, R177). -/
structure CardPort.InRange (p : CardPort) : Prop where
  notices : p.notices.length ≤ Config.noticePlaces
  noticePosition : p.noticePos < (noticeBytes p.noticeBuffer).length
  params : p.params.length ≤ Config.paramPlaces
  resultPosition : p.resultPos ≤ p.results.length

/-- A port with the same mode, configuration and latch, its lists still in range. -/
structure CardPort.Keeps (p q : CardPort) : Prop where
  mode : q.mode = p.mode
  settings : q.settings = p.settings
  latch : q.latch = p.latch
  latchPending : q.latchPending = p.latchPending
  range : p.InRange → q.InRange

/-- The configuration is within the ranges of Table 10-5 (R169 to R171). -/
structure Settings.InRange (g : Settings) : Prop where
  gather : 20 ≤ g.g ∧ g.g ≤ 2000
  wait : 2 ≤ g.w ∧ g.w ≤ 50
  absent : 100 ≤ g.p ∧ g.p ≤ 60000
  settle : 10 ≤ g.q ∧ g.q ≤ 1000
  pack : 1 ≤ g.k ∧ g.k ≤ 4
  limits : ∀ c, g.limit c ≤ Config.figureCap

/-- The Delivery Unit's queue and read position are within their ranges (R152, R158). -/
structure DeliveryUnit.InRange (d : DeliveryUnit) : Prop where
  places : d.queue.length ≤ Config.deliveryPlaces
  position : d.position < (deliveryBytes d.buffer).length

/-- The Delivery Unit holds nothing (R158, R163). -/
def DeliveryUnit.isEmpty (d : DeliveryUnit) : Prop := d.queue = [] ∧ d.buffer = none

/-- A standing entry of which the counts alone change: the attempt, the misses, the strikes and rx expected (R93, R100,
R144, R145, R155). The attempt may be that of the BID on the line (R92). -/
structure State.Recounts (s : State) (e f : Entry) : Prop where
  standing : e.state.standing = true
  rest : f = { e with
    attempt := f.attempt, misses := f.misses, noReceipt := f.noReceipt, busy := f.busy, rxExpected := f.rxExpected }
  attempt : f.attempt = e.attempt ∨ (1 ≤ f.attempt ∧ f.attempt ≤ Config.missLimit)
    ∨ ∃ x b, s.line.buffer = some x ∧ x.frame.body = .bid b ∧ f.attempt = b.attempt
  misses : f.misses = e.misses ∨ f.misses < Config.missLimit
  noReceipt : f.noReceipt = e.noReceipt ∨ f.noReceipt < Config.noReceiptLimit
  busy : f.busy = e.busy ∨ f.busy < Config.busyLimit

/-- The Supply Monitor outside RUN: A, E, M and CALIBRATION stand, T keeps its limit, and the retention flag is not set
again (R23, R44). -/
structure SupplyMonitor.Waits (u v : SupplyMonitor) : Prop where
  before : u.power ≠ .run
  after : v.power ≠ .run
  a : v.a = u.a
  e : v.e = u.e
  m : v.m = u.m
  calFault : v.calFault = u.calFault
  t : v.t = u.t ∨ v.t ≤ Config.outageMax
  warmup : v.warmup = u.warmup ∨ v.warmup = 0
  retention : v.retention = true → u.retention = true

/-- An offer point at which the transmitter may offer (R65, R68). -/
structure State.Offers (s : State) : Prop where
  running : s.running = true
  active : s.active = true
  sounding : s.line.silenced = false
  free : s.line.buffer = none

/-- The frame is composed from an item of the Answer List, the pending ROLL or an item of the Drop List (R83, R104, R113). -/
def State.lists (s : State) (body : FrameBody) (dest : Destination) : Prop :=
  (∃ a ∈ s.relink.answers, body = .answer ⟨a.circuit, a.attempt, a.verdict, a.key⟩ ∧ dest = .card a.origin)
    ∨ (∃ r, body = .roll r ∧ dest = .every)
    ∨ ∃ d ∈ s.relink.drops, body = .drop ⟨d.circuit, d.reason⟩ ∧ dest = .card d.far

/-- An item fit for the Answer List: well formed, or the answer of an entry in CHECKING (R98, R101). -/
def State.answerable (s : State) (a : AnswerItem) : Prop :=
  (a.circuit ≠ 0 ∧ 1 ≤ a.attempt ∧ a.attempt ≤ Config.missLimit)
    ∨ ∃ i verdict, (s.entry i).state = .checking ∧ a = (s.entry i).answer verdict

/-- A PENDING FAR entry given its absent deadline at gather close (R80). -/
def Entry.withAbsent (deadline : Nat) (e : Entry) : Entry :=
  if e.state = .pending ∧ e.role = .far then { e with deadline := some deadline } else e

/-- An entry once the highway is lost: parked where it was LIVE, or CHECKING or JOINING with its check standing (R120). -/
def Entry.unlit (checks : SlotSwitch) (i : Index) (e : Entry) : Entry :=
  if e.state = .live ∨ (checks.checking i = true ∧ (e.state = .checking ∨ e.state = .joining)) then
    { e with state := .parked }
  else e

/-! ### The moves -/

/-- A move after which the campaign has ended wherever it should, if it had before (R81). -/
inductive Move : State → State → Prop
  | elapsed (s : State) (n : Nat) : Move s (s.elapse n)
  | waited (s : State) (u : SupplyMonitor) (h : s.supply.Waits u) : Move s { s with supply := u }
  | released (s : State) (h : s.running = false) : Move s { s with line := { s.line with drive := .released } }
  | calibrated (s : State) (a : Nat) (fault : Bool) (window : Option Nat)
      (ha : a = s.supply.a ∨ (Config.calibrationMin ≤ a ∧ a ≤ Config.calibrationMax)) :
      Move s { s with
        supply := { s.supply with a := a, calFault := fault, window := window }
        port := s.port.latching { s.live with calFault := fault } }
  | held (s : State) (drive : LineDrive) (retention : Bool) (hr : retention = true → s.supply.retention = true)
      (hd : drive = .released ∨ (drive = .abort ∧ ∃ f, s.line.buffer = some f ∧ f.phase ≠ .receipt)) :
      Move s { s with
        supply := { s.supply with power := .hold, t := 0, window := none, upSeen := false, retention := retention }
        line := { s.line with
          receiver := .hunt, buffer := none, completed := none, receipt := none, closing := none, drive := drive }
        switch := s.switch.parked
        units := unmark s.units
        relink := { s.relink with arrival := .none }
        port := s.port.latching { s.live with lost := true } }
  | resetPort (s : State) (low edge : Bool) :
      Move s { s.resetPort with port := { s.resetPort.port with crstLow := low, crstEdge := edge } }
  | wokenActive (s : State) (t : Nat) (outbound : Vector Byte 64) (hp : s.supply.power = .wake)
      (hr : s.supply.retention = true) (ha : s.active = true) (ht : t ≤ Config.outageMax) :
      Move s { s with
        table := s.table.map Entry.atWake
        supply := { s.supply with
          power := .run, warmup := Config.warmupCycles, window := some 0, t := t, e := episodeFigure t s.supply.a
          m := accumulate s.supply.m (episodeFigure t s.supply.a) }
        relink := { s.relink.wake with
          campaign := .gather, joined := 0, failed := 0, late := 0, front := none
          gatherTimer := some (s.now + s.settings.g), settleTimer := .stopped }
        line := s.line.wake
        switch := { s.switch.parked with outbound := outbound }
        port := (s.port.posted [BeginCause.ownWake.notice]).latching { s.live with stuck := false, lost := true }
        freeCount := s.freeCount + 1 }
  | wokenConfig (s : State) (t : Nat) (outbound : Vector Byte 64) (hp : s.supply.power = .wake)
      (hr : s.supply.retention = true) (ha : s.active = false) (ht : t ≤ Config.outageMax) :
      Move s { s with
        supply := { s.supply with
          power := .run, warmup := Config.warmupCycles, window := some 0, t := t, e := episodeFigure t s.supply.a }
        relink := { s.relink with
          roster := Vector.replicate 32 RosterRecord.absent, openBid := none, arrival := .none }
        line := s.line.wake
        switch := { s.switch.parked with outbound := outbound }
        port := s.port.latching { s.live with stuck := false, lost := true }
        freeCount := s.freeCount + 1 }
  | offered (s : State) : Move s s.atOfferPoint
  | itemSent (s : State) (body : FrameBody) (dest : Destination) (h : s.Offers) (hl : s.lists body dest) :
      Move s (s.sending body dest none)
  | bidSent (s : State) (i : Index) (figure : BitVec 24) (h : s.Offers) (hs : (s.entry i).state = .pending)
      (hr : (s.entry i).role = .origin) (hn : ∀ j, (s.entry j).state ≠ .bidding) :
      Move s (s.sending
        (.bid ⟨(s.entry i).key, (s.entry i).circuit, (s.entry i).misses + 1, (s.entry i).fingerprint, figure⟩)
        (.card (s.entry i).farSlot) (some i))
  | carrySent (s : State) (i : Index) (h : s.Offers) (hs : (s.entry i).state.agreed = true)
      (hu : ∃ u ∈ s.units, u.entry = i) :
      Move s { s.sending (.carry ⟨(s.entry i).key, (s.entry i).circuit, s.packed i⟩) (.card (s.entry i).farSlot) (some i)
        with units := markUnits i s.settings.k s.units }
  | yielded (s : State) : Move s s.yielded
  | stuck (s : State) : Move s { s with
      line := { s.line with
        receiver := .hunt, gap := 0, dominant := Config.stuckBits + 1, stuck := true, receipt := none, closing := none }
      port := s.port.latching { s.live with stuck := true } }
  | hunted (s : State) (gap dominant : Nat) (hg : gap < Config.startGap) (hd : dominant ≤ Config.stuckBits) :
      Move s { s with
        line := { s.line with
          receiver := .hunt, gap := gap, dominant := dominant, stuck := false, receipt := none, closing := none }
        port := s.port.latching { s.live with stuck := false } }
  | endedFrame (s : State) : Move s (s.onLine ShelfLine.endFrame)
  | readLow (s : State) : Move s { s with
      line := s.line.readBit false, port := s.port.latching { s.live with stuck := (s.line.readBit false).stuck } }
  | wentOn (s : State) : Move s (s.onLine ShelfLine.goOn)
  | heard (s : State) (f : Frame) : Move s { s with
      line := s.line.heard f, port := s.port.latching { s.live with stuck := false } }
  | clashed (s : State) (f : Frame) (hr : s.running = true)
      (hb : ∀ g, s.line.buffer = some g → g.phase = .receipt) : Move s { s with
      line := { s.line.heard f with silenced := true, receipt := none }
      port := s.port.latching { s.live with clash := true, stuck := false } }
  | receipted (s : State) (f : Frame) (r : Option Receipt) (ha : s.active = true) (hs : s.line.silenced = false) :
      Move s (s.receipted f r)
  | handedOver (s : State) : Move s { s with line := { s.line with completed := none } }
  | sendEnded (s : State) (o : SendOutcome) (f : TxFrame) (hb : s.line.buffer = some f)
      (hf : ∀ c, f.frame.body ≠ .carry c) : Move s (s.sendEnded o)
  | carryEnded (s : State) (o : SendOutcome) (f : TxFrame) (hb : s.line.buffer = some f) :
      Move s { s.sendEnded o with
        units := if o = .taken then s.units.filter fun u => !u.inFlight
          else s.units.map fun u => { u with inFlight := false } }
  | recorded (s : State) (roster : Vector RosterRecord 32) (openBid : Option OpenBid) (arrival : Arrival) :
      Move s { s with relink := { s.relink with roster := roster, openBid := openBid, arrival := arrival } }
  | settleRestarted (s : State) (tick : Nat) (h : s.relink.campaign = .contend) :
      Move s { s with relink := { s.relink with settleTimer := .runsOutAt tick } }
  | frontMoved (s : State) (front : Option Key) (h : s.relink.campaign ≠ .steady) :
      Move s { s with relink := { s.relink with front := front } }
  | rolled (s : State) (h : s.active = true) : Move s s.rolled
  | queued (s : State) (a : AnswerItem) (hu : s.inUse) (ha : s.answerable a) : Move s (s.queued a)
  | answersLeft (s : State) (l : List AnswerItem) (hsub : ∀ a ∈ l, a ∈ s.relink.answers)
      (hlen : l.length ≤ s.relink.answers.length) : Move s { s with relink := { s.relink with answers := l } }
  | dropped (s : State) (circuit : Circuit) (far : CardSlot) (reason : DropReason)
      (h : ∃ i, (s.entry i).state ≠ .empty ∧ (s.entry i).circuit = circuit) : Move s (s.dropped circuit far reason)
  | dropsLeft (s : State) (l : List DropItem) (hlen : l.length ≤ s.relink.drops.length)
      (h : ∀ d ∈ l, ∃ x ∈ s.relink.drops, d.circuit = x.circuit ∧ (d.sends = x.sends ∨ d.sends < Config.dropSends)) :
      Move s { s with relink := { s.relink with drops := l } }
  | rollTaken (s : State) (tick : Nat) : Move s { s with relink := { s.relink with
      pendingRoll := none
      gatherTimer := if s.relink.campaign = .gather then some tick else s.relink.gatherTimer } }
  | recounted (s : State) (i : Index) (e : Entry) (h : s.Recounts (s.entry i) e) : Move s (s.withEntry i e)
  | returned (s : State) (i : Index) (misses : Nat) (hs : (s.entry i).state.standing = true)
      (hm : misses < Config.missLimit) : Move s (s.pendingAs i misses)
  | deferred (s : State) (i : Index) (misses tick : Nat)
      (hs : (s.entry i).state = .pending ∨ (s.entry i).state = .bidding)
      (hr : (s.entry i).state = .pending → (s.entry i).role = .origin)
      (hm : misses ≤ Config.missLimit ∨ misses = (s.entry i).attempt) :
      Move s { s.withEntry i { s.entry i with state := .deferred, misses := misses, deadline := some tick } with
        relink := { s.relink with answerTimer := s.timerWithout i } }
  | bidTaken (s : State) (o : SendOutcome) (f : TxFrame) (b : Bid) (i : Index) (tick : Nat)
      (hb : s.line.buffer = some f) (hf : f.frame.body = .bid b) (hs : (s.entry i).state = .pending)
      (hr : (s.entry i).role = .origin) :
      Move s { (s.sendEnded o).withEntry i { s.entry i with state := .bidding, attempt := b.attempt } with
        relink := { s.relink with answerTimer := some tick } }
  | checking (s : State) (i : Index) (hs : (s.entry i).state = .pending) (hr : (s.entry i).role = .far)
      (ha : 1 ≤ (s.entry i).attempt) (hp : s.switch.highway = .present) :
      Move s ((s.withEntry i { s.entry i with state := .checking, deadline := none }).checkAsked i)
  | submitted (s : State) (i : Index) (content : List Byte) (hs : (s.entry i).state.standing = true)
      (hu : s.units.length < Config.unitPlaces) (hc : 1 ≤ content.length ∧ content.length ≤ 8) :
      Move s { s.withEntry i { s.entry i with txSeq := (s.entry i).txSeq + 1 } with
        units := s.units ++ [⟨i, (s.entry i).txSeq, content, false⟩] }
  | gathered (s : State) (absent settle : Nat) (h : s.relink.campaign = .gather) :
      Move s { s with
        table := s.table.map (Entry.withAbsent absent)
        relink := { s.relink with campaign := .contend, gatherTimer := none, settleTimer := .runsOutAt settle } }
  | runCounted (s : State) (n : Nat) (hn : n ≤ Config.syncRun) :
      Move s { s with switch := { s.switch with runCount := n } }
  | gained (s : State) (frame : HighwayFrame) (hr : s.running = true) (hl : s.switch.highway = .lost) :
      Move s { s with
        switch := SlotSwitch.fill true { s.switch with
          highway := .present, runCount := Config.syncRun, missing := 0, timing := some ⟨frame, 0⟩
          checkQueue := s.switch.checkQueue ++ s.parkedIndices }
        port := s.port.latching { s.live with lost := false } }
  | frameStarted (s : State) (frame : HighwayFrame) (missing : Nat) (hp : s.switch.highway = .present)
      (hm : missing < Config.missingLimit) :
      Move s { s with switch := { s.switch.startFrame frame with missing := missing } }
  | slotRun (s : State) (x : FrameTiming) (outbound inbound : Vector Byte 64) (hx : s.switch.timing = some x)
      (hlt : x.slot < Config.frameSlots)
      (hin : ∀ c : Fin 64, inbound[c] = s.switch.inbound[c] ∨
        ∃ i, (s.entry i).state = .live ∧ (s.entry i).channel.toFin = c) :
      Move s { s with switch := { s.switch with
        timing := some { x with slot := x.slot + 1 }, outbound := outbound, inbound := inbound } }
  | readingCounted (s : State) (k : Fin 4) (c : Checker) (hc : s.switch.checkers[k] = some c)
      (hlt : c.samples + 1 < Config.quietReadings) :
      Move s { s with switch := { s.switch with
        checkers := s.switch.checkers.set k (some { c with samples := c.samples + 1 }) } }
  | ported (s : State) (p : CardPort) (h : s.port.Keeps p) : Move s { s with port := p }
  | configured (s : State) (g : Settings) (ha : s.active = false) (hg : s.settings.InRange → g.InRange)
      (hk : 1 ≤ s.settings.k ∧ s.settings.k ≤ 4 → 1 ≤ g.k ∧ g.k ≤ 4) :
      Move s { s with port := { s.port with settings := g } }
  | started (s : State) (tick : Nat) (ha : s.active = false) :
      Move s { s with
        relink := { s.relink with
          campaign := .gather, joined := 0, failed := 0, late := 0, front := none, pendingRoll := some .cold
          gatherTimer := some tick, settleTimer := .stopped }
        port := { s.port with mode := .active }.posted [BeginCause.start.notice] }
  | rearmed (s : State) : Move s { s with
      port := { s.port with latch := s.live, latchPending := decide (s.port.latch ≠ s.live) } }
  | delivered (s : State) (d : DeliveryUnit) (hr : s.delivery.InRange → d.InRange)
      (he : s.inUse ∨ (s.delivery.isEmpty → d.isEmpty)) : Move s { s with delivery := d }

/-- A move after which the campaign may have to end (R81): the command that makes it ends with that test. -/
inductive Shift : State → State → Prop
  | failed (s : State) (i : Index) (reason : FailReason) (far : Option FarReason)
      (hs : (s.entry i).state.standing = true) : Shift s (s.failedAs i reason far)
  | connected (s : State) (k : Fin 4) (c : Checker) (hc : s.switch.checkers[k] = some c)
      (hs : (s.entry c.index).state.awaitsCheck) :
      Shift s { s.connectedAs c.index with
        switch := SlotSwitch.fill false { s.switch with checkers := s.switch.checkers.set k none } }
  | freed (s : State) (k : Fin 4) (c : Checker) (hc : s.switch.checkers[k] = some c)
      (hs : ¬ (s.entry c.index).state.awaitsCheck) :
      Shift s { s with
        switch := SlotSwitch.fill false { s.switch with checkers := s.switch.checkers.set k none } }
  | joined (s : State) (i : Index) (st : EntryState) (late : Bool)
      (hs : (s.entry i).state = .bidding ∨ (s.entry i).state = .pending ∨ (s.entry i).state = .deferred)
      (hr : (s.entry i).role = .origin) (hst : st = .joining ∨ st = .parked) (hp : s.switch.highway = .present) :
      Shift s ((s.joinedAs i st late).checkAsked i)
  | joinedLost (s : State) (i : Index) (late : Bool)
      (hs : (s.entry i).state = .bidding ∨ (s.entry i).state = .pending ∨ (s.entry i).state = .deferred)
      (hr : (s.entry i).role = .origin) (hl : s.switch.highway = .lost) : Shift s (s.joinedAs i .parked late)
  | parked (s : State) (i : Index) (hs : (s.entry i).state = .pending) (hl : s.switch.highway = .lost) :
      Shift s (s.withEntry i { s.entry i with state := .parked, deadline := none })
  | highwayLost (s : State) (hr : s.running = true) :
      Shift s { s with
        table := Vector.ofFn fun i => (s.entry i).unlit s.switch i
        switch := s.switch.parked
        port := s.port.latching { s.live with lost := true } }
  | timedOut (s : State) (tick : Nat) (h : s.relink.settleTimer = .runsOutAt tick) :
      Shift s { s with relink := { s.relink with settleTimer := .runOut } }

/-- A chain of moves and shifts. -/
abbrev Changes : State → State → Prop := Relation.ReflTransGen fun s t => Move s t ∨ Shift s t

/-- A move, or a chain with shifts in it and the test of R81 at its end. -/
inductive Effect : State → State → Prop
  | move {s t : State} (h : Move s t) : Effect s t
  | settled {s t : State} (h : Changes s t) : Effect s t.endIfSettled

/-- A chain of effects. -/
abbrev Effects : State → State → Prop := Relation.ReflTransGen Effect

/-! ### What WRITE ENTRY, CLEAR ENTRY, power and a cold start do -/

/-- An entry that WRITE ENTRY may write at an EMPTY index (R5, R7, R8). -/
structure State.Fresh (s : State) (i : Index) (e : Entry) : Prop where
  active : s.active = true
  running : s.running = true
  empty : (s.entry i).state = .empty
  circuit : e.circuit ≠ 0
  unique : ∀ j, (s.entry j).state ≠ .empty →
    (s.entry j).circuit ≠ e.circuit ∧ (s.entry j).txSlot ≠ e.txSlot ∧ (s.entry j).channel ≠ e.channel
  key : e.key = keyOf e.cls e.ordinal
  fingerprint : e.fingerprint = fingerprintOf s.cardSlot e
  rest : e = { Entry.cleared with
    state := .parked, circuit := e.circuit, role := e.role, farSlot := e.farSlot, channel := e.channel
    txSlot := e.txSlot, rxSlot := e.rxSlot, cls := e.cls, ordinal := e.ordinal, key := e.key
    fingerprint := e.fingerprint }

/-- The entry written (R8, R9): PARKED with a check asked for in STEADY, PENDING otherwise. -/
inductive Placed : State → State → Prop
  | unlit (s : State) (i : Index) (e : Entry) (h : s.Fresh i e) (hc : s.relink.campaign = .steady)
      (hl : s.switch.highway = .lost) : Placed s (s.withEntry i e)
  | asked (s : State) (i : Index) (e : Entry) (h : s.Fresh i e) (hc : s.relink.campaign = .steady)
      (hp : s.switch.highway = .present) : Placed s ((s.withEntry i e).checkAsked i)
  | relinking (s : State) (i : Index) (e : Entry) (h : s.Fresh i e) (hc : s.relink.campaign ≠ .steady) :
      Placed s (s.withEntry i { e with state := .pending, deadline := s.pendingDeadline e.role })

/-- A standing entry taken out of the part, and all that R12, R13, R16, R105 and R128 take with it. -/
def State.takenOut (s : State) (i : Index) : State :=
  { s with
    table := s.table.set i Entry.cleared
    line := s.lineWithout i
    relink := { (s.unanswered i).relink with answerTimer := s.timerWithout i }
    switch := s.switchWithout i
    units := s.units.filter fun u => u.entry != i
    port := s.port.posted (s.discardNotices i) }

/-- The entry returned to EMPTY (R11, R12). -/
inductive Emptied (i : Index) : State → State → Prop
  | failed (s : State) (hs : (s.entry i).state = .failed) : Emptied i s
      { s with
        table := s.table.set i Entry.cleared
        line := s.lineWithout i
        units := s.units.filter fun u => u.entry != i
        port := s.port.posted (s.discardNotices i) }
  | standing (s : State) (hs : (s.entry i).state.standing = true) : Emptied i s (s.takenOut i).endIfSettled

/-- The part anew, by POWER_ON or a cold start (R35, R47; log entries 2, 14 and 16). -/
def State.anew (s : State) (straps : CardSlot) (power : Power) (mainOsc : Bool) (window : Option Nat)
    (retention : Bool) : State :=
  { State.reset with
    supply := { SupplyMonitor.cold with power := power, mainOsc := mainOsc, window := window, retention := retention }
    cardSlot := straps
    port := { CardPort.cold with crstLow := s.port.crstLow, dataOut := s.port.dataOut }
    freeCount := s.freeCount
    pending := s.pending }

/-- All that a command can do. -/
inductive Turn (c : Instr) (s t : State) : Prop
  | effects (h : Effects s t)
  | written {u : State} (hc : c = .writeEntry) (hp : Placed s u) (h : Effects u t)
  | cleared {u v : State} {i : Index} (hc : c = .clearEntry) (hu : Effects s u) (he : Emptied i u v) (h : Effects v t)
  | anew {straps : CardSlot} {power : Power} {mainOsc : Bool} {window : Option Nat} {retention : Bool}
      (hc : ¬ keepsMemory c s) (h : t = s.anew straps power mainOsc window retention)

end Sys2Proof.Machine

/-! Chains of moves: how they are put together, and the commands of the Card Port, the Supply Monitor and the Delivery
Unit as such chains. -/

namespace Sys2Proof.Machine

/-! ### Chains -/

theorem Changes.move {s t : State} (h : Move s t) : Changes s t := .single (.inl h)
theorem Changes.shift {s t : State} (h : Shift s t) : Changes s t := .single (.inr h)
theorem Effects.move {s t : State} (h : Move s t) : Effects s t := .single (.move h)
theorem Effects.settle {s t : State} (h : Changes s t) : Effects s t.endIfSettled := .single (.settled h)

theorem Changes.thenMove {s t u : State} (h : Changes s t) (m : Move t u) : Changes s u := h.tail (.inl m)
theorem Changes.thenShift {s t u : State} (h : Changes s t) (m : Shift t u) : Changes s u := h.tail (.inr m)
theorem Effects.thenMove {s t u : State} (h : Effects s t) (m : Move t u) : Effects s u := h.tail (.move m)

/-- A pass over the table whose every step is a chain is a chain. -/
theorem Changes.eachEntry (f : Index → State → State) (hf : ∀ i t, Changes t (f i t)) (s : State) :
    Changes s (s.eachEntry f) :=
  State.eachEntry_induct (Changes s) f s .refl fun i _ h => h.trans (hf i _)

theorem Effects.eachEntry (f : Index → State → State) (hf : ∀ i t, Effects t (f i t)) (s : State) :
    Effects s (s.eachEntry f) :=
  State.eachEntry_induct (Effects s) f s .refl fun i _ h => h.trans (hf i _)

/-! ### Moves of the port -/

theorem CardPort.Keeps.posted (p : CardPort) (ns : List Notice) : p.Keeps (p.posted ns) :=
  ⟨rfl, rfl, rfl, rfl, fun h => ⟨p.posted_length ns h.notices, h.noticePosition, h.params, h.resultPosition⟩⟩

theorem CardPort.Keeps.answered (p : CardPort) (bytes : List Byte) : p.Keeps (p.answered bytes) :=
  ⟨rfl, rfl, rfl, rfl, fun h => ⟨h.notices, h.noticePosition, Nat.zero_le _, Nat.zero_le _⟩⟩

/-- A port that differs only where no rule of every moment looks (R165, R181, R183). -/
theorem CardPort.Keeps.outside (p : CardPort) (overlength overflow crstLow crstEdge : Bool) (mask : BitVec 3)
    (dataOut : Byte) : p.Keeps { p with
      overlength := overlength, overflow := overflow, crstLow := crstLow, crstEdge := crstEdge, mask := mask,
      dataOut := dataOut } :=
  ⟨rfl, rfl, rfl, rfl, fun h => ⟨h.notices, h.noticePosition, h.params, h.resultPosition⟩⟩

theorem CardPort.Keeps.append (p : CardPort) (v : Byte) : p.Keeps (p.append v) := by
  unfold CardPort.append
  split
  · next h => exact ⟨rfl, rfl, rfl, rfl, fun hp => ⟨hp.notices, hp.noticePosition, by simpa using h, hp.resultPosition⟩⟩
  · exact .outside p true _ _ _ _ _

theorem noticeBytes_length_pos (n : Option Notice) : 0 < (noticeBytes n).length := by
  cases n <;> exact Nat.zero_lt_succ _

theorem CardPort.Keeps.advanceNotice (p : CardPort) : p.Keeps p.advanceNotice := by
  unfold CardPort.advanceNotice
  split
  · next h => exact ⟨rfl, rfl, rfl, rfl, fun hp => ⟨hp.notices, h, hp.params, hp.resultPosition⟩⟩
  · unfold CardPort.fetchNotice
    split
    · exact ⟨rfl, rfl, rfl, rfl, fun hp => ⟨hp.notices, Nat.zero_lt_one, hp.params, hp.resultPosition⟩⟩
    · next n rest hn =>
      refine ⟨rfl, rfl, rfl, rfl, fun hp => ⟨?_, noticeBytes_length_pos _, hp.params, hp.resultPosition⟩⟩
      have := hp.notices
      rw [hn] at this
      exact Nat.le_of_succ_le this

theorem CardPort.Keeps.trans {p q r : CardPort} (h : p.Keeps q) (g : q.Keeps r) : p.Keeps r :=
  ⟨g.mode.trans h.mode, g.settings.trans h.settings, g.latch.trans h.latch, g.latchPending.trans h.latchPending,
    fun hp => g.range (h.range hp)⟩

theorem Move.posted (s : State) (ns : List Notice) : Move s { s with port := s.port.posted ns } :=
  .ported s _ (.posted _ _)

theorem Move.post (s : State) (n : Notice) : Move s (s.post n) := by
  rw [State.post_eq]; exact .posted s [n]

theorem Move.leaveResult (s : State) (bytes : List Byte) : Move s (s.leaveResult bytes) :=
  .ported s _ (.answered _ _)

theorem Move.putData (s : State) (b : Byte) : Move s (s.putData b) := .ported s _ (.outside _ _ _ _ _ _ _)

theorem Effects.leaveResult (s : State) (bytes : List Byte) : Effects s (s.leaveResult bytes) := .move (.leaveResult s bytes)

/-! ### The reading commands, the accesses and the card reset -/

/-- A port command is its meaning where the port takes commands, and nothing otherwise (R37, R183). -/
theorem Effects.taking (s : State) {t : State} (h : Effects s t) :
    Effects s (if s.takesCommands then t else s) := by
  split
  · exact h
  · exact .refl

theorem State.readEntry_effects (s : State) : Effects s s.read := by
  unfold State.read
  split
  · exact .leaveResult _ _
  · split
    · exact .leaveResult _ _
    · split <;> exact .leaveResult _ _

theorem State.readRosterCmd_effects (s : State) : Effects s s.readRosterCmd := by
  unfold State.readRosterCmd
  split
  · exact .leaveResult _ _
  · split
    · exact .leaveResult _ _
    · split <;> exact .leaveResult _ _

theorem State.readCampaignCmd_effects (s : State) : Effects s s.readCampaignCmd := by
  unfold State.readCampaignCmd
  split <;> exact .leaveResult _ _

theorem State.readFiguresCmd_effects (s : State) : Effects s s.readFiguresCmd := by
  unfold State.readFiguresCmd
  split <;> exact .leaveResult _ _

theorem execUnknownCommand_effects (code : Byte) (s : State) :
    ∃ t, exec (.unknownCommand code) s = .next t ∧ Effects s t := by
  refine ⟨_, rfl, ?_⟩
  split
  · exact .leaveResult _ _
  · exact .refl

theorem execParamWrite_effects (v : Byte) (s : State) : ∃ t, exec (.paramWrite v) s = .next t ∧ Effects s t :=
  ⟨_, rfl, .taking s (.move (.ported s _ (.append _ _)))⟩

theorem State.readResult_effects (s : State) : Effects s s.readResult := by
  unfold State.readResult
  split
  · next b hb =>
    have hlt : s.port.resultPos < s.port.results.length := (List.getElem?_eq_some_iff.1 hb).1
    exact .move (.ported s _ ⟨rfl, rfl, rfl, rfl, fun h => ⟨h.notices, h.noticePosition, h.params, hlt⟩⟩)
  · exact .move (.putData s 0)

theorem execResultRead_effects (s : State) : ∃ t, exec .resultRead s = .next t ∧ Effects s t := by
  refine ⟨_, rfl, ?_⟩
  split
  · split
    · exact .move (.putData s 0)
    · exact s.readResult_effects
  · exact .move (.putData s _)

theorem execStatusRead_effects (s : State) : ∃ t, exec .statusRead s = .next t ∧ Effects s t := by
  refine ⟨_, rfl, ?_⟩
  split
  · exact .move (.ported s _ (.outside _ _ _ _ _ _ _))
  · exact .move (.putData s _)

theorem execNoticeRead_effects (s : State) : ∃ t, exec .noticeRead s = .next t ∧ Effects s t := by
  refine ⟨_, rfl, ?_⟩
  split
  · split
    · exact .move (.putData s 0)
    · exact (Effects.move (.putData s _)).thenMove (.ported _ _ (.advanceNotice _))
  · exact .move (.putData s _)

theorem execCardReset_effects (s : State) : ∃ t, exec .cardReset s = .next t ∧ Effects s t := by
  refine ⟨_, rfl, ?_⟩
  split
  · exact .refl
  · split
    · exact .move (.resetPort s true s.port.crstEdge)
    · exact .move (.ported s _ (.outside _ _ _ _ _ _ _))

theorem execCardResetRelease_effects (s : State) : ∃ t, exec .cardResetRelease s = .next t ∧ Effects s t :=
  ⟨_, rfl, .move (.ported s _ (.outside _ _ _ _ _ _ _))⟩

/-! ### The latch, the mask, the configuration and START -/

theorem State.rearm_eq (s : State) : s.rearm =
    { s with port := { s.port with latch := s.live, latchPending := decide (s.port.latch ≠ s.live) } } := by
  unfold State.rearm
  rw [State.latchChanges_eq]
  show { s with port := CardPort.latching { s.port with latchPending := false } s.live } = _
  by_cases h : s.port.latch = s.live <;> simp [CardPort.latching, h]

theorem State.resetLatchCmd_effects (s : State) : Effects s s.resetLatchCmd := by
  unfold State.resetLatchCmd
  split
  · exact .leaveResult _ _
  · have h : Effects s s.rearm := by rw [State.rearm_eq]; exact .move (.rearmed s)
    exact h.thenMove (.leaveResult _ _)

theorem State.setAttentionCmd_effects (s : State) : Effects s s.setAttentionCmd := by
  unfold State.setAttentionCmd
  split
  · exact .leaveResult _ _
  · split
    · exact .leaveResult _ _
    · exact (Effects.move (.ported s _ (.outside _ _ _ _ _ _ _))).thenMove (.leaveResult _ _)

theorem clamp_range {low high v : Nat} (h : low ≤ high) : low ≤ clamp low high v ∧ clamp low high v ≤ high := by
  unfold clamp; omega

theorem State.setTimingCmd_effects (s : State) : Effects s s.setTimingCmd := by
  unfold State.setTimingCmd
  split
  · exact .leaveResult _ _
  · next ha =>
    split
    · exact .leaveResult _ _
    · show Effects s (State.leaveResult { s with port := { s.port with settings := _ } } _)
      refine (Effects.move (.configured s _ (by simpa using ha) (fun h => ?_) (by exact id))).thenMove (.leaveResult _ _)
      exact ⟨clamp_range (by decide), clamp_range (by decide), clamp_range (by decide), clamp_range (by decide), h.pack,
        h.limits⟩

theorem State.setClassLimitCmd_effects (s : State) : Effects s s.setClassLimitCmd := by
  unfold State.setClassLimitCmd
  split
  · exact .leaveResult _ _
  · next ha =>
    split
    · exact .leaveResult _ _
    · split
      · exact .leaveResult _ _
      · show Effects s (State.leaveResult { s with port := { s.port with settings := _ } } _)
        refine (Effects.move (.configured s _ (by simpa using ha) (fun h => ?_) (by exact id))).thenMove (.leaveResult _ _)
        refine ⟨h.gather, h.wait, h.absent, h.settle, h.pack, fun c => ?_⟩
        rw [Settings.limit_setLimit]
        split
        · exact Nat.min_le_right _ _
        · exact h.limits c

theorem State.setPackingCmd_effects (s : State) : Effects s s.setPackingCmd := by
  unfold State.setPackingCmd
  split
  · exact .leaveResult _ _
  · next ha =>
    split
    · exact .leaveResult _ _
    · show Effects s (State.leaveResult { s with port := { s.port with settings := _ } } _)
      refine (Effects.move (.configured s _ (by simpa using ha) (fun h => ?_) fun _ => clamp_range (by decide))).thenMove
        (.leaveResult _ _)
      exact ⟨h.gather, h.wait, h.absent, h.settle, clamp_range (by decide), h.limits⟩

/-- START, in one form (R172). -/
theorem State.startCmd_eq (s : State) (hmode : s.active = false) (hcount : s.port.paramCount = 0) :
    s.startCmd = State.leaveResult { s with
      relink := { s.relink with
        campaign := .gather, joined := 0, failed := 0, late := 0, front := none, pendingRoll := some .cold
        gatherTimer := some (s.now + s.settings.g), settleTimer := .stopped }
      port := { s.port with mode := .active }.posted [BeginCause.start.notice] } [rDone] := by
  unfold State.startCmd
  rw [if_neg (by simp [hmode]), if_neg (by simp [hcount])]
  simp only [State.beginGather, State.beginCampaign, State.post_eq]
  rfl

theorem State.startCmd_effects (s : State) : Effects s s.startCmd := by
  cases ha : s.active
  · by_cases hc : s.port.paramCount = 0
    · rw [State.startCmd_eq s ha hc]
      exact (Effects.move (.started s _ ha)).thenMove (.leaveResult _ _)
    · unfold State.startCmd
      rw [if_neg (by simp [ha]), if_pos hc]
      exact .leaveResult _ _
  · unfold State.startCmd
    rw [if_pos ha]
    exact .leaveResult _ _

/-! ### The Supply Monitor -/

theorem State.running_eq_false (s : State) : s.running = false ↔ s.supply.power ≠ .run := by
  simp [State.running]

theorem State.running_eq_true (s : State) : s.running = true ↔ s.supply.power = .run := by
  simp [State.running]

theorem satAdd_le (limit a b : Nat) : satAdd limit a b ≤ limit := Nat.min_le_right _ _

/-- A rise of VDD in HOLD with the main oscillator stopped is the move to WAKE (R38). -/
theorem execSupplyUpInHold_of_stopped (aux : Nat) (s : State) (hp : s.supply.power = .hold)
    (hm : s.supply.mainOsc = false) : exec (.supplyUpInHold aux) s = .next { s with supply := { s.supply with
      power := .wake, mainOsc := true, warmup := 0, upSeen := false, t := min (s.supply.t + aux) 16777215 } } := by
  show execSupplyUpInHold aux s = _
  simp [execSupplyUpInHold, hp, hm, State.countAux, State.onSupply, SupplyMonitor.rise, satAdd, Config.outageMax]

/-- A rise of VDD in HOLD with the main oscillator still running is recorded (R36; log entry 15). -/
theorem execSupplyUpInHold_of_running (aux : Nat) (s : State) (hp : s.supply.power = .hold)
    (hm : s.supply.mainOsc = true) : exec (.supplyUpInHold aux) s = .next { s with supply := { s.supply with
      upSeen := true, t := min (s.supply.t + aux) 16777215 } } := by
  show execSupplyUpInHold aux s = _
  simp [execSupplyUpInHold, hp, hm, State.countAux, State.onSupply, satAdd, Config.outageMax]

theorem execSupplyUpInHold_of_not (aux : Nat) (s : State) (hp : s.supply.power ≠ .hold) :
    exec (.supplyUpInHold aux) s = .next s := by
  show execSupplyUpInHold aux s = _
  simp [execSupplyUpInHold, hp]

theorem execSupplyUpInHold_effects (aux : Nat) (s : State) :
    ∃ t, exec (.supplyUpInHold aux) s = .next t ∧ Effects s t := by
  by_cases hp : s.supply.power = .hold
  · cases hm : s.supply.mainOsc
    · refine ⟨_, execSupplyUpInHold_of_stopped aux s hp hm, .move (.waited s _ ?_)⟩
      exact ⟨by simp [hp], by simp, rfl, rfl, rfl, rfl, .inr (Nat.min_le_right _ _), .inr rfl, id⟩
    · refine ⟨_, execSupplyUpInHold_of_running aux s hp hm, .move (.waited s _ ?_)⟩
      exact ⟨by simp [hp], by simp [hp], rfl, rfl, rfl, rfl, .inr (Nat.min_le_right _ _), .inl rfl, id⟩
  · exact ⟨s, execSupplyUpInHold_of_not aux s hp, .refl⟩

theorem execSupplyDownInWake_effects (aux : Nat) (low : Bool) (s : State) :
    ∃ t, exec (.supplyDownInWake aux low) s = .next t ∧ Effects s t := by
  refine ⟨_, rfl, ?_⟩
  split
  · next hp =>
    refine .move (.waited s _ ⟨by simp [hp], by simp, rfl, rfl, rfl, rfl, .inr (satAdd_le _ _ _), .inr rfl, ?_⟩)
    simp only [State.countAux, State.onSupply, Bool.and_eq_true]
    exact fun h => h.1
  · exact .refl

theorem execRetentionLoss_effects (s : State) : ∃ t, exec .retentionLoss s = .next t ∧ Effects s t := by
  refine ⟨_, rfl, ?_⟩
  split
  · next hp => exact .move (.waited s _ ⟨by simp [hp], by simp [hp], rfl, rfl, rfl, rfl, .inl rfl, .inl rfl, nofun⟩)
  · exact .refl

theorem execOutageCounterSaturated_effects (s : State) :
    ∃ t, exec .outageCounterSaturated s = .next t ∧ Effects s t := by
  refine ⟨_, rfl, ?_⟩
  split
  · exact .refl
  · next hp => exact .move (.waited s _ ⟨hp, hp, rfl, rfl, rfl, rfl, .inr (Nat.le_refl _), .inl rfl, id⟩)

/-- The main oscillator stops with no rise of VDD recorded (R36). -/
theorem execMainOscillatorStop_of_down (s : State) (hp : s.supply.power = .hold) (hm : s.supply.mainOsc = true)
    (hu : s.supply.upSeen = false) : exec .mainOscillatorStop s = .next { s with
      line := { s.line with drive := .released }, supply := { s.supply with mainOsc := false } } := by
  show execMainOscillatorStop s = _
  simp [execMainOscillatorStop, hp, hm, hu, State.onLine, State.onSupply]

/-- The main oscillator stops with a rise of VDD recorded: the move to WAKE is made there (R36). -/
theorem execMainOscillatorStop_of_up (s : State) (hp : s.supply.power = .hold) (hm : s.supply.mainOsc = true)
    (hu : s.supply.upSeen = true) : exec .mainOscillatorStop s = .next { s with
      line := { s.line with drive := .released }
      supply := { s.supply with power := .wake, warmup := 0, upSeen := false } } := by
  show execMainOscillatorStop s = _
  simp [execMainOscillatorStop, hp, hm, hu, State.onLine, State.onSupply, SupplyMonitor.rise]

theorem execMainOscillatorStop_effects (s : State) : ∃ t, exec .mainOscillatorStop s = .next t ∧ Effects s t := by
  by_cases h : s.supply.power = .hold ∧ s.supply.mainOsc = true
  · obtain ⟨hp, hm⟩ := h
    have release := Effects.move (.released s (by simp [State.running_eq_false, hp]))
    cases hu : s.supply.upSeen
    · refine ⟨_, execMainOscillatorStop_of_down s hp hm hu, release.thenMove (.waited _ _ ?_)⟩
      exact ⟨by simp [hp], by simp [hp], rfl, rfl, rfl, rfl, .inl rfl, .inl rfl, id⟩
    · refine ⟨_, execMainOscillatorStop_of_up s hp hm hu, release.thenMove (.waited _ _ ?_)⟩
      exact ⟨by simp [hp], by simp, rfl, rfl, rfl, rfl, .inl rfl, .inr rfl, id⟩
  · refine ⟨s, ?_, .refl⟩
    show execMainOscillatorStop s = _
    rw [execMainOscillatorStop, if_neg h]

/-- A calibration window's end, in one form (R20). -/
theorem execCalibrationWindowEnd_eq (count : Nat) (s : State) (hr : s.running = true) :
    exec (.calibrationWindowEnd count) s = .next { s with
      now := s.now + (64 - s.supply.window.getD 0)
      supply := { s.supply with
        a := if 1024 ≤ count ∧ count ≤ 4095 then count else s.supply.a
        calFault := decide (¬ (1024 ≤ count ∧ count ≤ 4095))
        window := some 0 }
      port := s.port.latching { s.live with calFault := decide (¬ (1024 ≤ count ∧ count ≤ 4095)) } } := by
  show execCalibrationWindowEnd count s = _
  unfold execCalibrationWindowEnd
  rw [if_pos hr]
  simp only [State.latchChanges_eq]
  by_cases hc : 1024 ≤ count ∧ count ≤ 4095
  · have hc' : Config.calibrationMin ≤ count ∧ count ≤ Config.calibrationMax := hc
    simp only [hc', hc]
    rfl
  · have hc' : ¬ (Config.calibrationMin ≤ count ∧ count ≤ Config.calibrationMax) := hc
    simp only [hc', hc]
    rfl

theorem execCalibrationWindowEnd_effects (count : Nat) (s : State) :
    ∃ t, exec (.calibrationWindowEnd count) s = .next t ∧ Effects s t := by
  cases hr : s.running
  · refine ⟨s, ?_, .refl⟩
    show execCalibrationWindowEnd count s = _
    simp [execCalibrationWindowEnd, hr]
  · refine ⟨_, execCalibrationWindowEnd_eq count s hr, (Effects.move (.elapsed s (64 - s.supply.window.getD 0))).thenMove
      (.calibrated _ _ _ _ ?_)⟩
    split
    · next hc => exact .inr hc
    · exact .inl rfl

end Sys2Proof.Machine

/-! The power events, the Shelf Line Controller's faults and offer points, SUBMIT UNIT and the Delivery Unit's commands
in one form each, and as chains of moves. -/

namespace Sys2Proof.Machine

/-! ### The HOLD entry -/

/-- The phase that a HOLD entry leaves a frame in is SENDING where one of the two is, and neither is RECEIPT (R54). -/
theorem SendPhase.later_eq_sending (p q : SendPhase) :
    SendPhase.later p q = .sending ↔ p ≠ .receipt ∧ q ≠ .receipt ∧ (p = .sending ∨ q = .sending) := by
  cases p <;> cases q <;> simp [SendPhase.later]

/-- The HOLD entry, in one form (R22, R36, R44, R71, R130, R149, R178). -/
theorem execHoldEntry_eq (phase : SendPhase) (vretLow : Bool) (s : State) (hr : s.running = true) :
    exec (.holdEntry phase vretLow) s = .next { s with
      supply := { s.supply with
        power := .hold, t := 0, window := none, upSeen := false, retention := s.supply.retention && !vretLow }
      line := { s.line with
        receiver := .hunt, buffer := none, completed := none, receipt := none, closing := none
        drive := if s.line.buffer.map (fun f => SendPhase.later f.phase phase) = some .sending then .abort else .released }
      switch := s.switch.parked
      units := unmark s.units
      relink := { s.relink with arrival := .none }
      port := s.port.latching { s.live with lost := true } } := by
  show execHoldEntry phase vretLow s = _
  unfold execHoldEntry
  rw [if_pos hr]
  dsimp only
  rw [State.latchChanges_eq]
  rfl

theorem execHoldEntry_effects (phase : SendPhase) (vretLow : Bool) (s : State) :
    ∃ t, exec (.holdEntry phase vretLow) s = .next t ∧ Effects s t := by
  cases hr : s.running
  · refine ⟨s, ?_, .refl⟩
    show execHoldEntry phase vretLow s = _
    simp [execHoldEntry, hr]
  · refine ⟨_, execHoldEntry_eq phase vretLow s hr, .move (.held s _ _ (by simp only [Bool.and_eq_true]; exact And.left) ?_)⟩
    split
    · next h =>
      obtain ⟨f, hf, hl⟩ := Option.map_eq_some_iff.1 h
      exact .inr ⟨rfl, f, hf, ((SendPhase.later_eq_sending _ _).1 hl).1⟩
    · exact .inl rfl

/-! ### The WAKE end -/

theorem State.takeRecordedReset_of_edge (s : State) (h : s.port.crstEdge = true) :
    s.takeRecordedReset = s.resetPort.onPort fun p => { p with crstEdge := false } := if_pos h

theorem State.takeRecordedReset_of_none (s : State) (h : s.port.crstEdge = false) : s.takeRecordedReset = s :=
  if_neg (by simp [h])

/-- A recorded edge on CRST is taken first (R183), and the rest of a warm wake is as with none recorded. -/
theorem execWakeEnd_of_edge (aux : Nat) (straps : CardSlot) (s : State) (hp : s.supply.power = .wake)
    (hr : s.supply.retention = true) (he : s.port.crstEdge = true) :
    exec (.wakeEnd aux straps) s =
      exec (.wakeEnd aux straps) { s.resetPort with port := { s.resetPort.port with crstEdge := false } } := by
  show execWakeEnd aux straps s = execWakeEnd aux straps _
  unfold execWakeEnd
  rw [if_pos hp, if_pos hr, if_pos (show s.resetPort.supply.power = .wake from hp),
    if_pos (show s.resetPort.supply.retention = true from hr)]
  dsimp only
  rw [State.takeRecordedReset_of_edge _ (show ((s.countAux aux).onSupply _).port.crstEdge = true from he),
    State.takeRecordedReset_of_none _ rfl]
  rfl

/-- A warm wake in ACTIVE mode, in one form (R18, R24, R26, R45, R72, R76, R83, R131). -/
theorem execWakeEnd_active (aux : Nat) (straps : CardSlot) (s : State) (hp : s.supply.power = .wake)
    (hr : s.supply.retention = true) (ha : s.active = true) (he : s.port.crstEdge = false) :
    exec (.wakeEnd aux straps) s = .next { s with
      table := s.table.map Entry.atWake
      supply := { s.supply with
        power := .run, warmup := Config.warmupCycles, window := some 0, t := satAdd Config.outageMax s.supply.t aux
        e := episodeFigure (satAdd Config.outageMax s.supply.t aux) s.supply.a
        m := accumulate s.supply.m (episodeFigure (satAdd Config.outageMax s.supply.t aux) s.supply.a) }
      relink := { s.relink.wake with
        campaign := .gather, joined := 0, failed := 0, late := 0, front := none
        gatherTimer := some (s.now + s.settings.g), settleTimer := .stopped }
      line := s.line.wake
      switch := { s.switch.parked with outbound := Vector.ofFn fun c => Config.outboundAfterWake s.freeCount c.val }
      port := (s.port.posted [BeginCause.ownWake.notice]).latching { s.live with stuck := false, lost := true }
      freeCount := s.freeCount + 1 } := by
  show execWakeEnd aux straps s = _
  unfold execWakeEnd
  rw [if_pos hp, if_pos hr]
  dsimp only
  rw [State.takeRecordedReset_of_none _ (show ((s.countAux aux).onSupply _).port.crstEdge = false from he),
    if_pos (show ((s.countAux aux).onSupply _).active = true from ha)]
  simp only [State.latchChanges_eq, State.warmActive, State.beginGather, State.beginCampaign, State.post_eq]
  rfl

/-- A warm wake in CONFIG mode, in one form (R25, R46, R72, R76, R131). -/
theorem execWakeEnd_config (aux : Nat) (straps : CardSlot) (s : State) (hp : s.supply.power = .wake)
    (hr : s.supply.retention = true) (ha : s.active = false) (he : s.port.crstEdge = false) :
    exec (.wakeEnd aux straps) s = .next { s with
      supply := { s.supply with
        power := .run, warmup := Config.warmupCycles, window := some 0, t := satAdd Config.outageMax s.supply.t aux
        e := episodeFigure (satAdd Config.outageMax s.supply.t aux) s.supply.a }
      relink := { s.relink with
        roster := Vector.replicate 32 RosterRecord.absent, openBid := none, arrival := .none }
      line := s.line.wake
      switch := { s.switch.parked with outbound := Vector.ofFn fun c => Config.outboundAfterWake s.freeCount c.val }
      port := s.port.latching { s.live with stuck := false, lost := true }
      freeCount := s.freeCount + 1 } := by
  show execWakeEnd aux straps s = _
  unfold execWakeEnd
  rw [if_pos hp, if_pos hr]
  dsimp only
  rw [State.takeRecordedReset_of_none _ (show ((s.countAux aux).onSupply _).port.crstEdge = false from he),
    if_neg (ne_true_of_eq_false (show ((s.countAux aux).onSupply _).active = false from ha))]
  simp only [State.latchChanges_eq, State.warmConfig]
  rfl

/-- A cold start (R41, R47, R48). -/
theorem execWakeEnd_cold (aux : Nat) (straps : CardSlot) (s : State) (hp : s.supply.power = .wake)
    (hr : s.supply.retention = false) : exec (.wakeEnd aux straps) s = .next (s.coldStart straps) := by
  show execWakeEnd aux straps s = _
  unfold execWakeEnd
  rw [if_pos hp, if_neg (by simp [hr])]

theorem execWakeEnd_turn (aux : Nat) (straps : CardSlot) (s : State) :
    ∃ t, exec (.wakeEnd aux straps) s = .next t ∧ Turn (.wakeEnd aux straps) s t := by
  by_cases hp : s.supply.power = .wake
  · cases hr : s.supply.retention with
    | false =>
      refine ⟨_, execWakeEnd_cold aux straps s hp hr, .anew (fun h => ?_) (rfl : s.coldStart straps = s.anew straps _ _ _ _)⟩
      simpa [hr] using h.2 aux straps rfl hp
    | true =>
      have noEdge : ∀ u : State, u.supply.power = .wake → u.supply.retention = true → u.port.crstEdge = false →
          ∃ t, exec (.wakeEnd aux straps) u = .next t ∧ Effects u t := by
        intro u hp hr he
        cases ha : u.active
        · exact ⟨_, execWakeEnd_config aux straps u hp hr ha he,
            .move (.wokenConfig u _ _ hp hr ha (satAdd_le _ _ _))⟩
        · exact ⟨_, execWakeEnd_active aux straps u hp hr ha he,
            .move (.wokenActive u _ _ hp hr ha (satAdd_le _ _ _))⟩
      cases he : s.port.crstEdge
      · obtain ⟨t, ht, h⟩ := noEdge s hp hr he
        exact ⟨t, ht, .effects h⟩
      · rw [execWakeEnd_of_edge aux straps s hp hr he]
        obtain ⟨t, ht, h⟩ := noEdge { s.resetPort with port := { s.resetPort.port with crstEdge := false } } hp hr rfl
        exact ⟨t, ht, .effects ((Effects.move (.resetPort s s.port.crstLow false)).trans h)⟩
  · refine ⟨s, ?_, .effects .refl⟩
    show execWakeEnd aux straps s = _
    rw [execWakeEnd, if_neg hp]

theorem execPowerOn_turn (s : State) : ∃ t, exec .powerOn s = .next t ∧ Turn .powerOn s t :=
  ⟨_, rfl, .anew (straps := 0) (power := .hold) (mainOsc := false) (window := none) (retention := false)
    (fun h => h.1 rfl) rfl⟩

/-! ### Line faults (R53, R55, R57, R59) -/

theorem Effects.hunting (s : State) (gap run : Nat) (hg : gap < Config.startGap) (hd : run ≤ Config.stuckBits) :
    Effects s (s.hunting gap run) := by
  unfold State.hunting
  have hdom : (if gap = 0 then run else 0) ≤ Config.stuckBits := by split <;> omega
  have hy : s.yielded.port = s.port ∧ s.yielded.live = s.live := by rw [s.yielded_rest]; exact ⟨rfl, rfl⟩
  rw [← hy.1, ← hy.2]
  exact (Effects.move (.yielded s)).thenMove (.hunted _ gap _ hg hdom)

/-- A stuck line, in one form (R55). -/
theorem execShelfLineStuck_eq (s : State) (hr : s.running = true) : exec .shelfLineStuck s = .next { s.yielded with
      line := { s.yielded.line with
        receiver := .hunt, gap := 0, dominant := Config.stuckBits + 1, stuck := true, receipt := none, closing := none }
      port := s.yielded.port.latching { s.yielded.live with stuck := true } } := by
  show execShelfLineStuck s = _
  unfold execShelfLineStuck
  rw [if_pos hr, State.withdraw_eq s hr, State.latchChanges_eq]
  rfl

theorem execShelfLineStuck_effects (s : State) : ∃ t, exec .shelfLineStuck s = .next t ∧ Effects s t := by
  cases hr : s.running
  · refine ⟨s, ?_, .refl⟩
    show execShelfLineStuck s = _
    simp [execShelfLineStuck, hr]
  · exact ⟨_, execShelfLineStuck_eq s hr, (Effects.move (.yielded s)).thenMove (.stuck _)⟩

/-- An early dominant bit, in one form (R62). -/
theorem State.earlyDominant_eq (s : State) : s.earlyDominant =
    { s with
      line := (if s.line.closing.isSome then s.line.endFrame else s.line).readBit false
      port := s.port.latching
        { s.live with stuck := ((if s.line.closing.isSome then s.line.endFrame else s.line).readBit false).stuck } } := by
  have hs : ∀ l : ShelfLine, (l.readBit false).silenced = l.silenced := by
    intro l; unfold ShelfLine.readBit ShelfLine.countBit; cases l.receiver <;> rfl
  unfold State.earlyDominant
  rw [State.latchChanges_eq]
  dsimp only [State.onLine, State.live]
  rw [hs]
  split <;> rfl

theorem State.earlyDominant_effects (s : State) : Effects s s.earlyDominant := by
  rw [State.earlyDominant_eq]
  by_cases hc : s.line.closing.isSome = true
  · rw [if_pos hc]
    exact (Effects.move (.endedFrame s)).thenMove (.readLow _)
  · rw [if_neg hc]
    exact .move (.readLow s)

theorem execFramingFault_effects (cause : FramingCause) (gap : Nat) (s : State) :
    ∃ t, exec (.framingFault cause gap) s = .next t ∧ Effects s t := by
  refine ⟨_, rfl, ?_⟩
  split
  · next h =>
    obtain ⟨hr, hw⟩ := h
    cases cause with
    | sixEqual =>
      show Effects s (s.toHunt gap Config.stuffLimit)
      rw [State.toHunt_eq s _ _ hr]
      refine .hunting s _ _ ?_ (by decide)
      simp only [framingWf, Bool.or_eq_true, beq_iff_eq] at hw
      unfold Config.startGap
      omega
    | bodyLength n =>
      show Effects s (s.toHunt gap 1)
      rw [State.toHunt_eq s _ _ hr]
      simp only [framingWf, gapWf, Bool.and_eq_true, decide_eq_true_eq] at hw
      exact .hunting s _ _ hw.2 (by decide)
    | earlyDominant => exact s.earlyDominant_effects
  · exact .refl

theorem Effects.toHunt (s : State) (gap : Nat) (hr : s.running = true) (hg : gapWf gap = true) :
    Effects s (s.toHunt gap 1) := by
  rw [State.toHunt_eq s _ _ hr]
  exact .hunting s _ _ (by simpa [gapWf] using hg) (by decide)

theorem execCrcFailure_effects (bytes : List Byte) (crc : BitVec 16) (gap : Nat) (s : State) :
    ∃ t, exec (.crcFailure bytes crc gap) s = .next t ∧ Effects s t := by
  refine ⟨_, rfl, ?_⟩
  split
  · next h => exact .toHunt s gap h.1 h.2.1
  · exact .refl

theorem execMalformedFrame_effects (bytes : List Byte) (gap : Nat) (s : State) :
    ∃ t, exec (.malformedFrame bytes gap) s = .next t ∧ Effects s t := by
  refine ⟨_, rfl, ?_⟩
  split
  · next h => exact .toHunt s gap h.1 h.2.1
  · exact .refl

/-! ### Offer points (R69, R70) -/

/-- The entry found by `bestEntry` has the property asked for. -/
theorem State.bestEntry_some (s : State) (p : Index → Bool) {i : Index} (h : s.bestEntry p = some i) : p i = true := by
  unfold State.bestEntry at h
  revert h
  generalize List.finRange 64 = l
  suffices ∀ best : Option Index, (∀ j, best = some j → p j = true) → ∀ i,
      l.foldl (fun best i => if p i then
        match best with
        | none => some i
        | some j => if (s.entry i).key.toNat < (s.entry j).key.toNat then some i else some j
        else best) best = some i → p i = true from this none nofun i
  induction l with
  | nil => exact fun best hb i h => hb i h
  | cons k l ih =>
    intro best hb
    refine ih _ fun j hj => ?_
    dsimp only at hj
    split at hj
    · next hk =>
      cases best with
      | none => cases hj; exact hk
      | some m =>
        dsimp only at hj
        split at hj
        · cases hj; exact hk
        · exact hb j hj
    · exact hb j hj

/-- What an offer point finds, in one form (R55, R62). -/
theorem State.atOfferPoint_eq (s : State) :
    ((s.onLine ShelfLine.atOffer).onRelink fun r => { r with arrival := .none }).latchChanges = s.atOfferPoint := by
  rw [State.latchChanges_eq]
  rfl

theorem execOfferPoint_eq (s : State) (hr : s.running = true) (hb : s.line.buffer = none) :
    exec .offerPoint s = .next (match s.atOfferPoint.selection with
      | some f => s.atOfferPoint.send f
      | none => s.atOfferPoint) := by
  show execOfferPoint s = _
  unfold execOfferPoint
  rw [if_pos ⟨hr, hb⟩, State.atOfferPoint_eq] <;> rfl

/-- A frame composed at an offer point goes on the line (R62, R65, R70). -/
theorem State.send_atOfferPoint (s : State) (body : FrameBody) (dest : Destination) (owner : Option Index) :
    s.atOfferPoint.send ⟨⟨s.cardSlot, dest, body⟩, owner, .contending⟩ =
      { s.atOfferPoint.sending body dest owner with
        units := s.atOfferPoint.marksFor ⟨⟨s.cardSlot, dest, body⟩, owner, .contending⟩ } := rfl

/-- The candidates in their order (R69): the selection is the first that there is. -/
theorem State.selection_cases (s : State) (f : TxFrame) (h : s.selection = some f) :
    s.mayOffer = true ∧ (s.answerCandidate = some f ∨ s.rollCandidate = some f ∨ s.dropCandidate = some f
      ∨ s.bidCandidate = some f ∨ s.carryCandidate = some f) := by
  unfold State.selection at h
  split at h
  · next hm =>
    refine ⟨hm, ?_⟩
    rcases (Option.orElse_eq_some _ _ _).1 h with h | ⟨-, h⟩
    · rcases (Option.orElse_eq_some _ _ _).1 h with h | ⟨-, h⟩
      · rcases (Option.orElse_eq_some _ _ _).1 h with h | ⟨-, h⟩
        · rcases (Option.orElse_eq_some _ _ _).1 h with h | ⟨-, h⟩
          · exact .inl h
          · exact .inr (.inl h)
        · exact .inr (.inr (.inl h))
      · exact .inr (.inr (.inr (.inl h)))
    · exact .inr (.inr (.inr (.inr h)))
  · cases h

end Sys2Proof.Machine

/-! Offer points, frames observed, SUBMIT UNIT and the Delivery Unit's commands as chains of moves. -/

namespace Sys2Proof.Machine

/-! ### Offer points -/

/-- The selection's frame goes on the line by one move (R69, R70). -/
theorem State.send_move (s : State) (hr : s.running = true) (hb : s.line.buffer = none) (f : TxFrame)
    (h : s.atOfferPoint.selection = some f) : Move s.atOfferPoint (s.atOfferPoint.send f) := by
  obtain ⟨hm, hc⟩ := State.selection_cases _ f h
  simp only [State.mayOffer, Bool.and_eq_true, Bool.not_eq_true'] at hm
  obtain ⟨⟨⟨-, hact⟩, hsil⟩, -⟩ := hm
  have ho : s.atOfferPoint.Offers := ⟨hr, hact, hsil, hb⟩
  rcases hc with hc | hc | hc | hc | hc <;> obtain ⟨x, hx, rfl⟩ := Option.map_eq_some_iff.1 hc
  · exact .itemSent _ _ _ ho (.inl ⟨x, List.mem_of_mem_head? hx, rfl, rfl⟩)
  · exact .itemSent _ _ _ ho (.inr (.inl ⟨_, rfl, rfl⟩))
  · exact .itemSent _ _ _ ho (.inr (.inr ⟨x, List.mem_of_mem_head? hx, rfl, rfl⟩))
  · unfold State.bidEntry at hx
    split at hx
    · next hn =>
      have hp := State.bestEntry_some _ _ hx
      simp only [State.maybid, Bool.and_eq_true, beq_iff_eq] at hp
      have hno := (State.findEntry_none _ _).1 hn.2.2
      exact .bidSent _ x _ ho hp.1 hp.2 fun j hj => by simpa [hj] using hno j
    · cases hx
  · have hp := State.bestEntry_some _ _ hx
    simp only [State.eligible, Bool.and_eq_true, List.any_eq_true, beq_iff_eq] at hp
    exact .carrySent _ x ho hp.1 hp.2

theorem execOfferPoint_effects (s : State) : ∃ t, exec .offerPoint s = .next t ∧ Effects s t := by
  by_cases h : s.running = true ∧ s.line.buffer = none
  · refine ⟨_, execOfferPoint_eq s h.1 h.2, ?_⟩
    split
    · next f hf => exact (Effects.move (.offered s)).thenMove (s.send_move h.1 h.2 f hf)
    · exact .move (.offered s)
  · refine ⟨s, ?_, .refl⟩
    show execOfferPoint s = _
    rw [execOfferPoint, if_neg h]

/-! ### The latch commutes with what it does not read -/

theorem CardPort.posted_latching (p : CardPort) (ns : List Notice) (v : LatchItems) :
    (p.posted ns).latching v = (p.latching v).posted ns := by
  by_cases h : p.latchPending = true ∨ p.latch = v
  · rw [CardPort.latching, CardPort.latching, if_pos h,
      if_pos (show (p.posted ns).latchPending = true ∨ (p.posted ns).latch = v from h)]
  · rw [CardPort.latching, CardPort.latching, if_neg h,
      if_neg (show ¬ ((p.posted ns).latchPending = true ∨ (p.posted ns).latch = v) from h)]
    rfl

@[simp] theorem CardPort.latching_settings (p : CardPort) (v : LatchItems) : (p.latching v).settings = p.settings := by
  unfold CardPort.latching; split <;> rfl

@[simp] theorem CardPort.latching_mode (p : CardPort) (v : LatchItems) : (p.latching v).mode = p.mode := by
  unfold CardPort.latching; split <;> rfl

@[simp] theorem State.latchChanges_settings (s : State) : s.latchChanges.settings = s.settings := by
  rw [State.latchChanges_eq]; exact CardPort.latching_settings _ _

@[simp] theorem State.latchChanges_active (s : State) : s.latchChanges.active = s.active := by
  rw [State.latchChanges_eq]; simp only [State.active, CardPort.latching_mode]

@[simp] theorem State.latchChanges_entry (s : State) (i : Index) : s.latchChanges.entry i = s.entry i := by
  rw [State.latchChanges_eq]; rfl

@[simp] theorem State.latchChanges_relink (s : State) : s.latchChanges.relink = s.relink := by
  rw [State.latchChanges_eq]

@[simp] theorem State.latchChanges_now (s : State) : s.latchChanges.now = s.now := by
  rw [State.latchChanges_eq]

theorem State.latchChanges_onRelink (s : State) (f : RelinkEngine → RelinkEngine) :
    (s.onRelink f).latchChanges = s.latchChanges.onRelink f := by
  simp only [State.latchChanges_eq]; rfl

theorem State.latchChanges_posted (s : State) (ns : List Notice) :
    State.latchChanges { s with port := s.port.posted ns } =
      { s.latchChanges with port := s.latchChanges.port.posted ns } := by
  simp only [State.latchChanges_eq, ← CardPort.posted_latching]; rfl

theorem State.latchChanges_pendingAs (s : State) (i : Index) (m : Nat) :
    (s.pendingAs i m).latchChanges = s.latchChanges.pendingAs i m := by
  have hl : (s.pendingAs i m).live = s.live := by
    simp [State.live, State.pendingAs, State.switchWithout]
  rw [State.latchChanges_eq, hl, State.latchChanges_eq]
  unfold State.pendingAs State.begunForEntry State.settings
  simp only [CardPort.latching_settings]
  by_cases hc : s.relink.campaign = .steady
  · simp only [hc, if_true, CardPort.posted_latching]; rfl
  · simp only [hc, if_false]; rfl

theorem State.latchChanges_endIfSettled (s : State) : s.endIfSettled.latchChanges = s.latchChanges.endIfSettled := by
  have hs : s.latchChanges.settled ↔ s.settled := by
    unfold State.settled
    simp only [State.latchChanges_relink, State.latchChanges_entry]
  by_cases h : s.settled
  · rw [s.endIfSettled_of_settled h, State.endIfSettled_of_settled _ (hs.2 h)]
    simp only [State.latchChanges_eq, State.endedAs, ← CardPort.posted_latching]
    rfl
  · rw [s.endIfSettled_of_not h, State.endIfSettled_of_not _ (fun g => h (hs.1 g))]

theorem State.latchChanges_observe (s : State) (f : Frame) : (s.observe f).latchChanges = s.latchChanges.observe f := by
  unfold State.observe
  split
  · rw [State.latchChanges_onRelink, State.latchChanges_now, State.latchChanges_settings]
  · rw [State.latchChanges_onRelink]
  · rfl

theorem State.latchChanges_actorGoverns (s : State) (f : Frame) :
    s.latchChanges.actorGoverns f = s.actorGoverns f := by
  funext i
  unfold State.actorGoverns State.actsOn State.acts
  rw [State.latchChanges_entry, State.latchChanges_active, State.latchChanges_eq]
  rfl

theorem State.latchChanges_deferredReturn (s : State) (f : Frame) :
    (s.deferredReturn f).latchChanges = s.latchChanges.deferredReturn f := by
  unfold State.deferredReturn State.eachEntry
  rw [State.latchChanges_actorGoverns]
  generalize List.finRange 64 = l
  generalize s.actorGoverns f = g
  induction l generalizing s with
  | nil => rfl
  | cons i l ih =>
    rw [List.foldl_cons, List.foldl_cons, ih]
    congr 1
    simp only [State.latchChanges_entry]
    split
    · rw [State.moveToPending_eq, State.moveToPending_eq, State.latchChanges_pendingAs]
    · rfl

/-! ### A frame observed (R63, R65, R67, R86) -/

/-- The line hears a frame, and the latch sees SHELF LINE NORMAL (R55, R62). -/
def State.hearing (s : State) (f : Frame) : State :=
  { s with line := s.line.heard f, port := s.port.latching { s.live with stuck := false } }

/-- The line hears a frame of this card's own slot: the transmitter is SILENCED, and the latch sees SLOT CLASH (R67). -/
def State.hearingOwn (s : State) (f : Frame) : State :=
  { s with
    line := { s.line.heard f with silenced := true, receipt := none }
    port := s.port.latching { s.live with clash := true, stuck := false } }

theorem State.hearing_eq (s : State) (f : Frame) : (s.onLine fun l => l.hearFrame f).latchChanges = s.hearing f := by
  rw [State.latchChanges_eq]
  simp only [ShelfLine.hearFrame_eq]
  rfl

/-- A frame heard from another card slot, the latch taken first. -/
theorem State.frameHeard_of_other (s : State) (f : Frame) (h : f.source ≠ s.cardSlot) :
    s.frameHeard f = ((((((s.hearing f).onRelink fun r => r.hear f).deferredReturn f).observe f).onRelink
      fun r => { r with arrival := s.arrivalAfter f }).endIfSettled) := by
  unfold State.frameHeard State.hearSource
  rw [if_neg (show ¬ f.source = (s.onLine _).cardSlot from h)]
  dsimp only
  rw [State.latchChanges_endIfSettled, State.latchChanges_onRelink, State.latchChanges_observe,
    State.latchChanges_deferredReturn, State.latchChanges_onRelink, State.hearing_eq]

theorem State.yielded_of_free (s : State) (hb : s.line.buffer = none) : s.yielded = s := by
  unfold State.yielded; rw [hb]

theorem State.yielded_of_receipt (s : State) {x : TxFrame} (hb : s.line.buffer = some x) (hp : x.phase = .receipt) :
    s.yielded = s := by
  unfold State.yielded; rw [hb]; exact if_pos hp

theorem State.yielded_of_sent (s : State) {x : TxFrame} (hb : s.line.buffer = some x) (hp : x.phase ≠ .receipt) :
    s.yielded = { s with
      line := { s.line with buffer := none, drive := .released }
      units := match x.frame.body with
        | .carry _ => s.units.map fun u => { u with inFlight := false }
        | _ => s.units } := by
  unfold State.yielded; rw [hb]; exact if_neg hp

theorem State.yielded_onLine_hearFrame (s : State) (f : Frame) :
    (s.onLine fun l => l.hearFrame f).yielded = s.yielded.onLine fun l => l.hearFrame f := by
  simp only [ShelfLine.hearFrame_eq]
  cases hb : s.line.buffer with
  | none => rw [State.yielded_of_free _ hb, State.yielded_of_free _ (by exact hb)]
  | some x =>
    by_cases hp : x.phase = .receipt
    · rw [State.yielded_of_receipt _ hb hp, State.yielded_of_receipt _ (by exact hb) hp]
    · rw [State.yielded_of_sent _ hb hp, State.yielded_of_sent _ (by exact hb) hp]
      rfl

/-- A frame heard from this card's own slot, the latch taken first. -/
theorem State.frameHeard_of_own (s : State) (f : Frame) (hr : s.running = true) (h : f.source = s.cardSlot) :
    s.frameHeard f = (((s.yielded.hearingOwn f).observe f).onRelink fun r =>
      { r with arrival := s.arrivalAfter f }).endIfSettled := by
  unfold State.frameHeard State.hearSource
  rw [if_pos (show f.source = (s.onLine _).cardSlot from h)]
  dsimp only
  rw [State.latchChanges_endIfSettled, State.latchChanges_onRelink, State.latchChanges_observe,
    State.withdraw_eq _ (show (s.onLine _).running = true from hr), State.yielded_onLine_hearFrame, State.latchChanges_eq]
  simp only [ShelfLine.hearFrame_eq]
  rfl

theorem RelinkEngine.observeBid_of_contend (r : RelinkEngine) (now q : Nat) (source far : CardSlot) (b : Bid)
    (h : r.campaign = .contend) : r.observeBid now q source far b =
      { r with openBid := some ⟨b.circuit, source, far, now⟩, settleTimer := .runsOutAt (now + q) } := by
  unfold RelinkEngine.observeBid; rw [if_pos h]

theorem RelinkEngine.observeBid_of_not (r : RelinkEngine) (now q : Nat) (source far : CardSlot) (b : Bid)
    (h : r.campaign ≠ .contend) : r.observeBid now q source far b =
      { r with openBid := some ⟨b.circuit, source, far, now⟩ } := by
  unfold RelinkEngine.observeBid; rw [if_neg h]

theorem State.observe_changes (s : State) (f : Frame) : Changes s (s.observe f) := by
  unfold State.observe State.onRelink
  dsimp only
  split
  · next b far _ _ =>
    have h := Changes.move (.recorded s s.relink.roster (some ⟨b.circuit, f.source, far, s.now⟩) s.relink.arrival)
    by_cases hc : s.relink.campaign = .contend
    · rw [RelinkEngine.observeBid_of_contend _ _ _ _ _ _ hc]
      exact h.thenMove (.settleRestarted _ (s.now + s.settings.q) hc)
    · rw [RelinkEngine.observeBid_of_not _ _ _ _ _ _ hc]
      exact h
  · next a _ =>
    have h := Changes.move
      (.recorded s s.relink.roster (openBidAfter s.relink.openBid f.source a) s.relink.arrival)
    unfold RelinkEngine.observeAnswer
    by_cases hc : s.relink.campaign ≠ .steady ∧ Verdict.agrees a.verdict = true
    · rw [if_pos hc]
      exact h.thenMove (.frontMoved _ (raiseFront s.relink.front a.key) hc.1)
    · rw [if_neg hc]
      exact h
  · exact .refl

theorem State.deferredReturn_changes (s : State) (f : Frame) : Changes s (s.deferredReturn f) := by
  refine .eachEntry _ (fun i t => ?_) s
  split
  · next h =>
    rw [State.moveToPending_eq]
    exact .move (.returned t i 0 (by simp [h.1, EntryState.standing]) (by decide))
  · exact .refl

theorem Changes.arrival (s : State) (a : Arrival) : Changes s (s.onRelink fun r => { r with arrival := a }) :=
  .move (.recorded s s.relink.roster s.relink.openBid a)

theorem State.yielded_buffer_phase (s : State) (g : TxFrame) (h : s.yielded.line.buffer = some g) :
    g.phase = .receipt := by
  cases hb : s.line.buffer with
  | none => rw [State.yielded_of_free _ hb, hb] at h; cases h
  | some x =>
    by_cases hp : x.phase = .receipt
    · rw [State.yielded_of_receipt _ hb hp, hb] at h; cases h; exact hp
    · rw [State.yielded_of_sent _ hb hp] at h; cases h

theorem State.frameHeard_effects (s : State) (f : Frame) (hr : s.running = true) : Effects s (s.frameHeard f) := by
  by_cases h : f.source = s.cardSlot
  · rw [State.frameHeard_of_own s f hr h]
    have hy : s.yielded.running = true := by rw [State.yielded_rest]; exact hr
    refine .settle (.trans (.trans ?_ (State.observe_changes _ f)) (Changes.arrival _ _))
    exact (Changes.move (.yielded s)).thenMove (.clashed _ f hy s.yielded_buffer_phase)
  · rw [State.frameHeard_of_other s f h]
    refine .settle (.trans (.trans (.trans ?_ (State.deferredReturn_changes _ f)) (State.observe_changes _ f)) (Changes.arrival _ _))
    exact (Changes.move (.heard s f)).thenMove
      (.recorded _ _ s.relink.openBid s.relink.arrival)

theorem State.frameCompleted_effects (s : State) (f : Frame) : Effects s (s.frameCompleted f) :=
  .settle ((Changes.move (.handedOver s)).trans ((State.observe_changes _ f).trans (Changes.arrival _ _)))

theorem execFrameObserved_effects (origin : FrameOrigin) (f : Frame) (s : State) :
    ∃ t, exec (.frameObserved origin f) s = .next t ∧ Effects s t := by
  refine ⟨_, rfl, ?_⟩
  split
  · next hr =>
    split
    · exact s.frameHeard_effects f hr
    · exact .refl
  · split
    · exact s.frameCompleted_effects f
    · exact .refl
  · exact .refl

end Sys2Proof.Machine

/-! SUBMIT UNIT, the Delivery Unit's commands, frames handed to the acting blocks and outcomes as chains of moves. -/

namespace Sys2Proof.Machine

/-! ### SUBMIT UNIT (R134 to R136) -/

theorem EntryState.standing_iff (st : EntryState) : st.standing = true ↔ st ≠ .empty ∧ st ≠ .failed := by
  cases st <;> simp [EntryState.standing]

/-- A unit accepted, in one form (R134, R136). -/
theorem State.acceptUnit_eq (s : State) (i : Index) (content : List Byte) : s.acceptUnit i content =
    State.leaveResult { s.withEntry i { s.entry i with txSeq := (s.entry i).txSeq + 1 } with
      units := s.units ++ [⟨i, (s.entry i).txSeq, content, false⟩] }
      [rDone, (s.entry i).txSeq, byteOf (s.units.length + 1)] := by
  have h : (s.units ++ [(⟨i, (s.entry i).txSeq, content, false⟩ : QueuedUnit)]).length = s.units.length + 1 := by simp
  unfold State.acceptUnit
  dsimp only
  rw [← h]
  rfl

/-- SUBMIT UNIT for a standing entry (R136). -/
theorem State.submitTo_standing (s : State) (i : Index) (content : List Byte)
    (h : (s.entry i).state.standing = true) : s.submitTo i content =
      if s.units.length < Config.unitPlaces then s.acceptUnit i content else s.leaveResult [rFull] := by
  unfold State.submitTo
  split
  · next hs => rw [hs] at h; cases h
  · next hs => rw [hs] at h; cases h
  · rfl

theorem State.submitTo_effects (s : State) (i : Index) (content : List Byte)
    (hc : 1 ≤ content.length ∧ content.length ≤ 8) : Effects s (s.submitTo i content) := by
  by_cases hs : (s.entry i).state.standing = true
  · rw [State.submitTo_standing s i content hs]
    split
    · next hu =>
      rw [State.acceptUnit_eq]
      exact (Effects.move (.submitted s i content hs hu hc)).thenMove (.leaveResult _ _)
    · exact .leaveResult _ _
  · unfold State.submitTo
    split
    · exact .leaveResult _ _
    · exact .leaveResult _ _
    · next h1 h2 => exact absurd ((EntryState.standing_iff _).2 ⟨h1, h2⟩) hs

theorem State.submit_effects (s : State) : Effects s s.submit := by
  unfold State.submit
  split
  · exact .leaveResult _ _
  · split
    · exact .leaveResult _ _
    · next hn =>
      split
      · exact .leaveResult _ _
      · refine s.submitTo_effects _ _ ?_
        rw [List.length_drop]
        unfold CardPort.paramCount Config.paramPlaces at hn
        split at hn <;> omega

/-! ### The Delivery Unit (R153, R158, R160) -/

theorem deliveryBytes_length_pos (r : Option DeliveryRecord) : 0 < (deliveryBytes r).length := by
  cases r <;> exact Nat.zero_lt_succ _

theorem DeliveryUnit.fetch_inRange (d : DeliveryUnit) (h : d.queue.length ≤ Config.deliveryPlaces) :
    d.fetch.InRange := by
  unfold DeliveryUnit.fetch
  split
  · next hq => exact ⟨h, deliveryBytes_length_pos _⟩
  · next r rest hq =>
    split
    · exact ⟨h, deliveryBytes_length_pos _⟩
    · rw [hq] at h
      exact ⟨Nat.le_of_succ_le h, deliveryBytes_length_pos _⟩

theorem DeliveryUnit.advance_inRange (d : DeliveryUnit) (h : d.InRange) : d.advance.InRange := by
  unfold DeliveryUnit.advance
  split
  · next hp => exact ⟨h.places, hp⟩
  · exact d.fetch_inRange h.places

theorem DeliveryUnit.fetch_isEmpty (d : DeliveryUnit) (h : d.isEmpty) : d.fetch.isEmpty := by
  obtain ⟨hq, -⟩ := h
  unfold DeliveryUnit.fetch
  split
  · exact ⟨hq, rfl⟩
  · next he => rw [hq] at he; cases he

theorem DeliveryUnit.advance_isEmpty (d : DeliveryUnit) (h : d.isEmpty) : d.advance.isEmpty := by
  unfold DeliveryUnit.advance
  split
  · exact h
  · exact d.fetch_isEmpty h

theorem execDeliveryRead_effects (s : State) : ∃ t, exec .deliveryRead s = .next t ∧ Effects s t := by
  refine ⟨_, rfl, ?_⟩
  split
  · split
    · exact .move (.putData s 0)
    · exact (Effects.move (.putData s _)).thenMove
        (.delivered _ _ (DeliveryUnit.advance_inRange _) (.inr (DeliveryUnit.advance_isEmpty _)))
  · exact .move (.putData s _)

theorem DeliveryUnit.dropGapCopy_inRange (d : DeliveryUnit) (h : d.InRange) : d.dropGapCopy.InRange := by
  unfold DeliveryUnit.dropGapCopy
  split
  · split
    · exact ⟨h.places, deliveryBytes_length_pos _⟩
    · exact h
  · exact h

theorem DeliveryUnit.dropGapCopy_queue (d : DeliveryUnit) : d.dropGapCopy.queue = d.queue := by
  unfold DeliveryUnit.dropGapCopy
  split
  · split <;> rfl
  · rfl

theorem State.clearGap_effects (s : State) : Effects s s.clearGap := by
  unfold State.clearGap
  split
  · exact .leaveResult _ _
  · next ha =>
    split
    · exact .leaveResult _ _
    · split
      · exact .leaveResult _ _
      · next r rest hq =>
        split
        · refine (Effects.move (.delivered s { s.delivery.dropGapCopy with queue := rest } (fun h => ?_)
            (.inl (.inl (by simpa using ha))))).thenMove (.leaveResult _ _)
          refine ⟨?_, (s.delivery.dropGapCopy_inRange h).position⟩
          have := h.places
          rw [hq] at this
          exact Nat.le_of_succ_le this
        · exact .leaveResult _ _

/-! ### What `acts` says (R63) -/

/-- A frame handed to an acting block finds the card in RUN, in ACTIVE mode, not SILENCED, and of another slot. -/
theorem State.acts_iff (s : State) (source : CardSlot) : s.acts source = true ↔
    s.running = true ∧ s.active = true ∧ s.line.silenced = false ∧ source ≠ s.cardSlot := by
  simp [State.acts, and_assoc]

theorem Move.giveReceipt {s : State} {source : CardSlot} (h : s.acts source = true) (f : Frame) (r : Option Receipt) :
    Move s (s.giveReceipt f r) := by
  obtain ⟨-, hact, hsil, -⟩ := (s.acts_iff source).1 h
  rw [State.giveReceipt_eq]
  exact .receipted s f r hact hsil

/-! ### A CARRY received (R153, R155) -/

theorem judgeUnit_length (i : Index) (circuit : Circuit) (acc : Byte × List DeliveryRecord) (u : SignalUnit) :
    (judgeUnit i circuit acc u).2.length ≤ acc.2.length + 1 := by
  unfold judgeUnit
  dsimp only
  split
  · simp
  · split <;> simp

theorem judgeUnits_length (i : Index) (circuit : Circuit) (us : List SignalUnit) (acc : Byte × List DeliveryRecord) :
    (us.foldl (judgeUnit i circuit) acc).2.length ≤ us.length + acc.2.length := by
  induction us generalizing acc with
  | nil => simp
  | cons u us ih =>
    have h1 := ih (judgeUnit i circuit acc u)
    have h2 := judgeUnit_length i circuit acc u
    simp only [List.foldl_cons, List.length_cons]
    omega

theorem State.agreed_standing {st : EntryState} (h : st.agreed = true) : st.standing = true := by
  cases st <;> simp_all [EntryState.agreed, EntryState.standing]

/-- Units judged, in one form (R155). -/
theorem State.judgeUnits_eq (s : State) (i : Index) (us : List SignalUnit) : s.judgeUnits i us =
    { s.withEntry i { s.entry i with
        rxExpected := (us.foldl (judgeUnit i (s.entry i).circuit) ((s.entry i).rxExpected, s.delivery.queue)).1 } with
      delivery := { s.delivery with
        queue := (us.foldl (judgeUnit i (s.entry i).circuit) ((s.entry i).rxExpected, s.delivery.queue)).2 } } := rfl

theorem State.withEntry_entry_self (s : State) (i : Index) (e : Entry) : (s.withEntry i e).entry i = e :=
  State.setEntry_entry_self s i e

theorem State.withEntry_entry (s : State) (i j : Index) (e : Entry) :
    (s.withEntry i e).entry j = if i = j then e else s.entry j := State.setEntry_entry s i j e

/-- Units judged (R155), as moves of the entry's rx expected and of the Delivery Queue. -/
theorem State.judgeUnits_effects (s : State) (i : Index) (us : List SignalUnit)
    (ha : (s.entry i).state.agreed = true) (hr : us.length + s.delivery.queue.length ≤ Config.deliveryPlaces) :
    Effects s (s.judgeUnits i us) := by
  have hs := State.agreed_standing ha
  rw [State.judgeUnits_eq]
  generalize hacc : us.foldl (judgeUnit i (s.entry i).circuit) ((s.entry i).rxExpected, s.delivery.queue) = acc
  have hlen : acc.2.length ≤ Config.deliveryPlaces := by
    rw [← hacc]; exact (judgeUnits_length i _ us _).trans hr
  refine (Effects.move (.recounted s i { s.entry i with rxExpected := acc.1 }
    ⟨hs, rfl, .inl rfl, .inl rfl, .inl rfl, .inl rfl⟩)).thenMove
      (.delivered _ { s.delivery with queue := acc.2 } (fun h => ⟨hlen, h.position⟩) (.inl (.inr ⟨i, ?_⟩)))
  rw [State.withEntry_entry_self]
  exact ((EntryState.standing_iff _).1 hs).1

theorem State.carryFor_effects (s : State) {source : CardSlot} (h : s.acts source = true) (f : Frame) (i : Index)
    (us : List SignalUnit) : Effects s (s.carryFor f i us) := by
  unfold State.carryFor
  split
  · exact (Effects.move (.giveReceipt h f _)).thenMove (.post _ _)
  · split
    · next hf =>
      refine (Effects.move (.giveReceipt h f _)).trans (State.judgeUnits_effects _ i us ?_ ?_)
      · rw [State.giveReceipt_entry]; exact hf.1
      · rw [State.giveReceipt_delivery]; exact hf.2
    · exact .move (.giveReceipt h f _)

theorem execCarryReceived_effects (source : CardSlot) (c : Carry) (s : State) :
    ∃ t, exec (.carryReceived source c) s = .next t ∧ Effects s t := by
  by_cases h : s.acts source = true ∧ c.wf = true
  · cases he : s.entryFacing c.circuit source with
    | none =>
      refine ⟨s.discardInbound (s.frameToMe source (.carry c)) 0xFF c.units.length, ?_,
        (Effects.move (.giveReceipt h.1 _ _)).thenMove (.post _ _)⟩
      show execCarryReceived source c s = _
      rw [execCarryReceived, if_pos h]
      dsimp only
      rw [he]
    | some i =>
      refine ⟨s.carryFor (s.frameToMe source (.carry c)) i c.units, ?_, s.carryFor_effects h.1 _ _ _⟩
      show execCarryReceived source c s = _
      rw [execCarryReceived, if_pos h]
      dsimp only
      rw [he]
  · refine ⟨s, ?_, .refl⟩
    show execCarryReceived source c s = _
    rw [execCarryReceived, if_neg h]

end Sys2Proof.Machine

/-! ROLL, BID, ANSWER and DROP received, in closed forms and as chains of moves. -/

namespace Sys2Proof.Machine

/-! ### Moves in a chain -/

theorem Changes.settleAfter {s t : State} (h : Changes s t) : Effects s t.endIfSettled := .settle h

theorem Move.unanswered (s : State) (i : Index) : Move s (s.unanswered i) :=
  .answersLeft s _ (fun _ h => List.mem_of_mem_filter h) (List.length_filter_le _ _)

@[simp] theorem State.receipted_entry (s : State) (f : Frame) (r : Option Receipt) (i : Index) :
    (s.receipted f r).entry i = s.entry i := rfl

@[simp] theorem State.receipted_active (s : State) (f : Frame) (r : Option Receipt) :
    (s.receipted f r).active = s.active := by
  simp only [State.receipted, State.active, CardPort.latching_mode]

@[simp] theorem State.receipted_settings (s : State) (f : Frame) (r : Option Receipt) :
    (s.receipted f r).settings = s.settings := by
  simp only [State.receipted, State.settings, CardPort.latching_settings]

/-! ### ROLL received (R75, R77, R84, R85) -/

/-- A campaign begun in GATHER, in one form (R74, R75, R76). -/
theorem State.beginGather_eq (s : State) (cause : BeginCause) : s.beginGather cause = { s with
    relink := { s.relink with
      campaign := .gather, joined := 0, failed := 0, late := 0, front := none
      gatherTimer := some (s.now + s.settings.g), settleTimer := .stopped }
    port := s.port.posted [cause.notice] } := by
  simp only [State.beginGather, State.beginCampaign, State.post_eq]
  rfl

/-- The campaign effect of a ROLL from a peer (R75, R77). -/
theorem State.rollEffect_eq (s : State) : s.rollEffect = s.rolled := by
  unfold State.rollEffect State.rolled
  cases s.relink.campaign with
  | steady => exact s.beginGather_eq .peerRoll
  | gather => rfl
  | contend => rfl

/-- A ROLL COLD's effect on a standing entry that faces its source (R84, R105). -/
theorem State.rollColdEntry_eq (source : CardSlot) (i : Index) (s : State) : State.rollColdEntry source i s =
    if (s.entry i).farSlot = source ∧ (s.entry i).state.standing = true then
      (s.failedAs i .lost none).unanswered i
    else s := by
  unfold State.rollColdEntry
  rw [State.moveToFailed_eq]
  rfl

/-- A ROLL WARM's effect on a standing entry that faces its source (R85, R105). -/
theorem State.rollWarmEntry_eq (source : CardSlot) (i : Index) (s : State) : State.rollWarmEntry source i s =
    if (s.entry i).farSlot = source ∧ (s.entry i).state.standing = true then
      if (s.entry i).state = .pending then s.withEntry i { s.entry i with misses := 0 }
      else (s.pendingAs i 0).unanswered i
    else s := by
  unfold State.rollWarmEntry
  rw [State.moveToPending_eq]
  by_cases hf : (s.entry i).farSlot = source
  · rw [if_pos hf]
    by_cases hp : (s.entry i).state = .pending
    · rw [if_neg (by simp [EntryState.returnable, hp]), if_pos hp, if_pos ⟨hf, by rw [hp]; rfl⟩, if_pos hp]
      rfl
    · have hret : (s.entry i).state.returnable = (s.entry i).state.standing := by simp [EntryState.returnable, hp]
      simp only [hret, hp, if_false, hf, true_and]
      rfl
  · rw [if_neg hf, if_neg fun h => hf h.1]

theorem State.rollColdEntry_changes (source : CardSlot) (i : Index) (s : State) :
    Changes s (State.rollColdEntry source i s) := by
  rw [State.rollColdEntry_eq]
  split
  · next h => exact (Changes.shift (.failed s i .lost none h.2)).thenMove (.unanswered _ i)
  · exact .refl

theorem State.rollWarmEntry_effects (source : CardSlot) (i : Index) (s : State) :
    Effects s (State.rollWarmEntry source i s) := by
  rw [State.rollWarmEntry_eq]
  split
  · next h =>
    split
    · exact .move (.recounted s i _ ⟨h.2, rfl, .inl rfl, .inr (show 0 < Config.missLimit by decide), .inl rfl, .inl rfl⟩)
    · exact (Effects.move (.returned s i 0 h.2 (by decide))).thenMove (.unanswered _ i)
  · exact .refl

/-- A ROLL COLD received, in one form (R84). -/
theorem execRollColdReceived_eq (source : CardSlot) (figure : BitVec 24) (s : State) (h : s.acts source = true) :
    exec (.rollColdReceived source figure) s = .next
      (((s.receipted ⟨source, .every, .roll ⟨.cold, figure⟩⟩ none).rolled.eachEntry
        (State.rollColdEntry source)).endIfSettled) := by
  show execRollColdReceived source figure s = _
  rw [execRollColdReceived, if_pos h, State.giveReceipt_eq, State.rollEffect_eq]

/-- A ROLL WARM received, in one form (R85). -/
theorem execRollWarmReceived_eq (source : CardSlot) (figure : BitVec 24) (s : State) (h : s.acts source = true) :
    exec (.rollWarmReceived source figure) s = .next
      ((s.receipted ⟨source, .every, .roll ⟨.warm, figure⟩⟩ none).rolled.eachEntry (State.rollWarmEntry source)) := by
  show execRollWarmReceived source figure s = _
  rw [execRollWarmReceived, if_pos h, State.giveReceipt_eq, State.rollEffect_eq]

theorem exec_rollColdReceived_of_not (source : CardSlot) (figure : BitVec 24) (s : State) (h : ¬ s.acts source = true) :
    exec (.rollColdReceived source figure) s = .next s := by
  show execRollColdReceived source figure s = _
  rw [execRollColdReceived, if_neg h]

theorem exec_rollWarmReceived_of_not (source : CardSlot) (figure : BitVec 24) (s : State) (h : ¬ s.acts source = true) :
    exec (.rollWarmReceived source figure) s = .next s := by
  show execRollWarmReceived source figure s = _
  rw [execRollWarmReceived, if_neg h]

theorem execRollColdReceived_effects (source : CardSlot) (figure : BitVec 24) (s : State) :
    ∃ t, exec (.rollColdReceived source figure) s = .next t ∧ Effects s t := by
  by_cases h : s.acts source = true
  · refine ⟨_, execRollColdReceived_eq source figure s h, .settle (.trans ?_
      (Changes.eachEntry _ (State.rollColdEntry_changes source) _))⟩
    obtain ⟨-, hact, hsil, -⟩ := (s.acts_iff source).1 h
    exact (Changes.move (.receipted s _ _ hact hsil)).thenMove (.rolled _ (by simpa using hact))
  · exact ⟨s, exec_rollColdReceived_of_not source figure s h, .refl⟩

theorem execRollWarmReceived_effects (source : CardSlot) (figure : BitVec 24) (s : State) :
    ∃ t, exec (.rollWarmReceived source figure) s = .next t ∧ Effects s t := by
  by_cases h : s.acts source = true
  · refine ⟨_, execRollWarmReceived_eq source figure s h, .trans ?_ (Effects.eachEntry _ (State.rollWarmEntry_effects source) _)⟩
    obtain ⟨-, hact, hsil, -⟩ := (s.acts_iff source).1 h
    exact (Effects.move (.receipted s _ _ hact hsil)).thenMove (.rolled _ (by simpa using hact))
  · exact ⟨s, exec_rollWarmReceived_of_not source figure s h, .refl⟩

/-! ### Requests for a check (R125) -/

theorem State.requestCheck_of_present (s : State) (i : Index) (h : s.switch.highway = .present) :
    s.requestCheck i = s.checkAsked i := by
  unfold State.requestCheck
  rw [h]
  rfl

theorem State.requestCheck_of_lost (s : State) (i : Index) (h : s.switch.highway = .lost) :
    s.requestCheck i = s.checkCannotRun i := by
  unfold State.requestCheck
  rw [h]

theorem State.checkCannotRun_of_checking (s : State) (i : Index) (h : (s.entry i).state = .checking) :
    s.checkCannotRun i = (s.withEntry i { s.entry i with state := .parked }).queued ((s.entry i).answer .matchParked) := by
  unfold State.checkCannotRun
  rw [h]
  rfl

theorem State.checkCannotRun_of_joining (s : State) (i : Index) (h : (s.entry i).state = .joining) :
    s.checkCannotRun i = s.withEntry i { s.entry i with state := .parked } := by
  unfold State.checkCannotRun
  rw [h]
  rfl

theorem State.checkCannotRun_of_parked (s : State) (i : Index) (h : (s.entry i).state = .parked) :
    s.checkCannotRun i = s := by
  unfold State.checkCannotRun
  rw [h]

theorem State.withEntry_withEntry (s : State) (i : Index) (e f : Entry) :
    (s.withEntry i e).withEntry i f = s.withEntry i f := by
  simp [State.withEntry]

/-! ### BID received (R98 to R100) -/

theorem State.farEntryFacing_some (s : State) (circuit : Circuit) (source : CardSlot) {i : Index}
    (h : s.farEntryFacing circuit source = some i) :
    (s.entry i).state ≠ .empty ∧ (s.entry i).circuit = circuit ∧ (s.entry i).farSlot = source
      ∧ (s.entry i).role = .far := by
  have := s.findEntry_some _ h
  simpa [and_assoc] using this

theorem State.entryFacing_some (s : State) (circuit : Circuit) (source : CardSlot) {i : Index}
    (h : s.entryFacing circuit source = some i) : s.faces circuit source i := by
  have := s.findEntry_some _ h
  simpa [State.faces, and_assoc] using this

theorem Bid.wf_iff (b : Bid) : b.wf = true ↔ (1 ≤ b.attempt ∧ b.attempt ≤ 3) ∧ b.circuit ≠ 0 := by
  simp [Bid.wf, attemptWf, circuitWf]

theorem Answer.wf_iff (a : Answer) : a.wf = true ↔ (1 ≤ a.attempt ∧ a.attempt ≤ 3) ∧ a.circuit ≠ 0 := by
  simp [Answer.wf, attemptWf, circuitWf]

theorem Changes.queued {s t : State} (h : Changes s t) (hu : t.inUse) (a : AnswerItem) (ha : t.answerable a) :
    Changes s (t.queueAnswer a) := h.thenMove (.queued t a hu ha)

/-- A PENDING FAR entry whose BID is accepted while the highway is LOST parks, with MATCH-PARKED queued (R100, R125). -/
theorem State.checkOrPark_of_lost (s : State) (i : Index) (h : s.switch.highway = .lost) :
    (s.withEntry i { s.entry i with state := .checking, deadline := none }).requestCheck i =
      (s.withEntry i { s.entry i with state := .parked, deadline := none }).queued
        ((s.entry i).answer .matchParked) := by
  have he := s.withEntry_entry_self i { s.entry i with state := .checking, deadline := none }
  rw [State.requestCheck_of_lost (s.withEntry i _) i h, State.checkCannotRun_of_checking _ i (by rw [he]), he,
    State.withEntry_withEntry]
  rfl

theorem State.acceptBid_changes (s : State) (i : Index) (source : CardSlot) (b : Bid) (hb : b.wf = true)
    (hs : (s.entry i).state.standing = true) (hr : (s.entry i).role = .far) (hc : (s.entry i).circuit = b.circuit) :
    Changes s (s.acceptBid i source b) := by
  obtain ⟨hatt, hcirc⟩ := (Bid.wf_iff b).1 hb
  unfold State.acceptBid
  generalize ht : (s.onEntry i fun e => { e with attempt := b.attempt }) = t
  have he : t.entry i = { s.entry i with attempt := b.attempt } := by rw [← ht]; exact s.onEntry_entry_self i _
  have hst : Changes s t := by
    rw [← ht]
    exact .move (.recounted s i _ ⟨hs, rfl, .inr (.inl hatt), .inl rfl, .inl rfl, .inl rfl⟩)
  have huse : t.inUse := .inr ⟨i, by rw [he]; exact ((EntryState.standing_iff _).1 hs).1⟩
  have hans : ∀ verdict key, t.answerable (Bid.answerFor b source verdict key) := fun _ _ => .inl ⟨hcirc, hatt⟩
  have hcirc' : (t.entry i).circuit ≠ 0 := by rw [he]; exact hc ▸ hcirc
  have hatt' : 1 ≤ (t.entry i).attempt ∧ (t.entry i).attempt ≤ Config.missLimit := by rw [he]; exact hatt
  dsimp only
  split
  · exact hst.queued huse _ (hans _ _)
  · exact hst.queued huse _ (hans _ _)
  · next hp =>
    rw [State.onEntry_eq]
    cases hw : t.switch.highway with
    | lost =>
      rw [show (t.setEntry i _).requestCheck i = _ from State.checkOrPark_of_lost t i hw]
      exact (hst.thenMove (.queued t _ huse (.inl ⟨hcirc', hatt'⟩))).thenShift (.parked (t.queued _) i hp hw)
    | present =>
      rw [State.requestCheck_of_present (t.setEntry i _) i hw]
      exact hst.thenMove (.checking t i hp (by rw [he]; exact hr) hatt'.1 hw)
  all_goals exact hst

theorem State.judgeBid_changes (s : State) (i : Index) (source : CardSlot) (b : Bid) (hb : b.wf = true)
    (hne : (s.entry i).state ≠ .empty) (hr : (s.entry i).role = .far) (hc : (s.entry i).circuit = b.circuit) :
    Changes s (s.judgeBid i source b) := by
  obtain ⟨hatt, hcirc⟩ := (Bid.wf_iff b).1 hb
  have hans : ∀ (t : State) verdict key, t.answerable (Bid.answerFor b source verdict key) := fun _ _ _ => .inl ⟨hcirc, hatt⟩
  have huse : ∀ reason far, (s.failedAs i reason far).inUse := fun reason far =>
    .inr ⟨i, by simp [State.entry, State.failedAs]⟩
  unfold State.judgeBid
  simp only [State.moveToFailed_eq]
  split
  · exact Changes.queued .refl (.inr ⟨i, hne⟩) _ (hans _ _ _)
  · next hf =>
    have hs : (s.entry i).state.standing = true := (EntryState.standing_iff _).2 ⟨hne, hf⟩
    split
    · exact (Changes.shift (.failed s i _ _ hs)).queued (huse _ _) _ (hans _ _ _)
    · split
      · exact (Changes.shift (.failed s i _ _ hs)).queued (huse _ _) _ (hans _ _ _)
      · exact s.acceptBid_changes i source b hb hs hr hc

/-- A BID received, in one form (R64, R98, R99). -/
theorem execBidReceived_eq (source : CardSlot) (b : Bid) (s : State) (h : s.acts source = true) (hb : b.wf = true) :
    exec (.bidReceived source b) s = .next
      ((match (s.receipted ⟨source, .card s.cardSlot, .bid b⟩ (some .taken)).farEntryFacing b.circuit source with
        | none => (s.receipted ⟨source, .card s.cardSlot, .bid b⟩ (some .taken)).queueAnswer
            (Bid.answerFor b source .refuseUnknown 0)
        | some i => (s.receipted ⟨source, .card s.cardSlot, .bid b⟩ (some .taken)).judgeBid i source b).endIfSettled) := by
  show execBidReceived source b s = _
  rw [execBidReceived, if_pos ⟨h, hb⟩, State.giveReceipt_eq]
  rfl

theorem execBidReceived_of_not (source : CardSlot) (b : Bid) (s : State) (h : ¬ (s.acts source = true ∧ b.wf = true)) :
    exec (.bidReceived source b) s = .next s := by
  show execBidReceived source b s = _
  rw [execBidReceived, if_neg h]

theorem execBidReceived_effects (source : CardSlot) (b : Bid) (s : State) :
    ∃ t, exec (.bidReceived source b) s = .next t ∧ Effects s t := by
  by_cases h : s.acts source = true ∧ b.wf = true
  · obtain ⟨hacts, hb⟩ := h
    refine ⟨_, execBidReceived_eq source b s hacts hb, .settle ?_⟩
    obtain ⟨hatt, hcirc⟩ := (Bid.wf_iff b).1 hb
    obtain ⟨-, hact, hsil, -⟩ := (s.acts_iff source).1 hacts
    have hrec := Changes.move (.receipted s ⟨source, .card s.cardSlot, .bid b⟩ (some .taken) hact hsil)
    split
    · exact hrec.queued (.inl (by simpa using hact)) _ (.inl ⟨hcirc, hatt⟩)
    · next i hi =>
      obtain ⟨hne, hc, -, hr⟩ := State.farEntryFacing_some _ _ _ hi
      exact hrec.trans (State.judgeBid_changes _ i source b hb hne hr hc)
  · exact ⟨s, execBidReceived_of_not source b s h, .refl⟩

/-! ### ANSWER received (R106 to R111) -/

/-- The answer timer stopped, and the entry moved into FAILED, is the move into FAILED (R95). -/
theorem State.failedAs_stopAnswerTimer (s : State) (i : Index) (reason : FailReason) (far : Option FarReason) :
    (s.stopAnswerTimer i).failedAs i reason far = s.failedAs i reason far := by
  rw [State.stopAnswerTimer_eq]
  unfold State.failedAs State.timerWithout
  by_cases h : (s.entry i).state = .bidding
  · simp only [State.entry] at h ⊢
    simp only [h, if_true]
    rfl
  · simp only [State.entry] at h ⊢
    simp only [h, if_false]

/-- The joined and late counts with a JOINED notice (R82). -/
theorem RelinkEngine.countJoin_eq (r : RelinkEngine) (late : Bool) : r.countJoin late =
    { r with
      joined := if r.campaign = .steady then r.joined else min (r.joined + 1) 255
      late := if r.campaign ≠ .steady ∧ late = true then min (r.late + 1) 255 else r.late } := by
  unfold RelinkEngine.countJoin
  by_cases h : r.campaign = .steady
  · rw [if_pos h]
    cases r
    simp_all
  · cases late <;> simp [h, countUp, satAdd]

/-- The origin has agreed, in one form (R107, R108, R109). -/
theorem State.join_eq (s : State) (i : Index) (st : EntryState) (late : Bool) :
    (s.stopAnswerTimer i).join i st late = s.joinedAs i st late := by
  unfold State.join State.joinedAs
  simp only [State.post_eq, State.stopAnswerTimer_eq, State.onRelink, RelinkEngine.countJoin_eq]
  rfl

theorem State.joinedAs_entry_self (s : State) (i : Index) (st : EntryState) (late : Bool) :
    (s.joinedAs i st late).entry i = { s.entry i with state := st, late := late, deadline := none } := by
  simp [State.entry, State.joinedAs]

theorem State.joinedAs_parked (s : State) (i : Index) (late : Bool) :
    (s.joinedAs i .joining late).withEntry i
      { (s.joinedAs i .joining late).entry i with state := .parked } = s.joinedAs i .parked late := by
  rw [State.joinedAs_entry_self]
  simp [State.withEntry, State.joinedAs]

/-- What an ANSWER that agrees leaves of its origin (R107, R125). -/
def State.joinedBy (s : State) (i : Index) (st : EntryState) (late : Bool) : State :=
  if s.switch.highway = .lost then s.joinedAs i .parked late else (s.joinedAs i st late).checkAsked i

theorem State.join_requestCheck (s : State) (i : Index) (st : EntryState) (late : Bool)
    (hst : st = .joining ∨ st = .parked) :
    ((s.stopAnswerTimer i).join i st late).requestCheck i = s.joinedBy i st late := by
  rw [State.join_eq]
  unfold State.joinedBy
  have he := s.joinedAs_entry_self i st late
  cases hw : s.switch.highway with
  | lost =>
    rw [if_pos rfl, State.requestCheck_of_lost (s.joinedAs i st late) i hw]
    rcases hst with rfl | rfl
    · rw [State.checkCannotRun_of_joining _ i (by rw [he]), State.joinedAs_parked]
    · rw [State.checkCannotRun_of_parked _ i (by rw [he])]
  | present => rw [if_neg nofun, State.requestCheck_of_present (s.joinedAs i st late) i hw]

/-- The entry moved as the verdict gives, in one form (R107 to R111). -/
theorem State.takeAnswer_eq (s : State) (i : Index) (a : Answer) (late : Bool) : s.takeAnswer i a late =
    match a.verdict with
    | .match_ => s.joinedBy i .joining late
    | .matchParked => s.joinedBy i .parked late
    | v => s.failedAs i .refused (some (Verdict.farReason v)) := by
  unfold State.takeAnswer
  dsimp only
  rw [State.join_requestCheck s i .joining late (.inl rfl), State.join_requestCheck s i .parked late (.inr rfl)]
  simp only [State.moveToFailed_eq, State.failedAs_stopAnswerTimer]
  cases a.verdict <;> rfl

theorem Entry.takesAnswer_iff (e : Entry) (a : Answer) : e.takesAnswer a = true ↔
    e.role = .origin ∧ (e.state = .bidding ∨ e.state = .pending ∨ e.state = .deferred) ∧ e.attempt = a.attempt := by
  simp [Entry.takesAnswer, and_assoc, or_assoc]

theorem State.takeAnswer_changes (s : State) (i : Index) (a : Answer) (late : Bool)
    (h : (s.entry i).takesAnswer a = true) : Changes s (s.takeAnswer i a late) := by
  obtain ⟨hr, hs, -⟩ := (Entry.takesAnswer_iff _ _).1 h
  have hst : (s.entry i).state.standing = true := by rcases hs with hs | hs | hs <;> rw [hs] <;> rfl
  have joins : ∀ st, st = .joining ∨ st = .parked → Changes s (s.joinedBy i st late) := by
    intro st hj
    unfold State.joinedBy
    cases hw : s.switch.highway with
    | lost => rw [if_pos rfl]; exact .shift (.joinedLost s i late hs hr hw)
    | present => rw [if_neg nofun]; exact .shift (.joined s i st late hs hr hj hw)
  rw [State.takeAnswer_eq]
  split
  · exact joins _ (.inl rfl)
  · exact joins _ (.inr rfl)
  · exact .shift (.failed s i _ _ hst)

/-- What an ANSWER leaves at once: its receipt, and the model's own arrival record (log entry 5). -/
def State.answered (s : State) (source : CardSlot) (a : Answer) : State :=
  { s.receipted ⟨source, .card s.cardSlot, .answer a⟩ (some .taken) with
    relink := { s.relink with arrival := s.relink.arrival.afterActing source a } }

/-- An ANSWER received, in one form (R106). -/
theorem execAnswerReceived_eq (source : CardSlot) (a : Answer) (s : State) (h : s.acts source = true)
    (ha : a.wf = true) : exec (.answerReceived source a) s = .next
      (match (s.answered source a).entryFacing a.circuit source with
        | none => s.answered source a
        | some i =>
          if ((s.answered source a).entry i).takesAnswer a then
            ((s.answered source a).takeAnswer i a
              (keyBelow ((s.answered source a).entry i).key (s.frontBefore source a))).endIfSettled
          else s.answered source a) := by
  show execAnswerReceived source a s = _
  rw [execAnswerReceived, if_pos ⟨h, ha⟩, State.giveReceipt_eq]
  rfl

theorem execAnswerReceived_of_not (source : CardSlot) (a : Answer) (s : State)
    (h : ¬ (s.acts source = true ∧ a.wf = true)) : exec (.answerReceived source a) s = .next s := by
  show execAnswerReceived source a s = _
  rw [execAnswerReceived, if_neg h]

theorem execAnswerReceived_effects (source : CardSlot) (a : Answer) (s : State) :
    ∃ t, exec (.answerReceived source a) s = .next t ∧ Effects s t := by
  by_cases h : s.acts source = true ∧ a.wf = true
  · refine ⟨_, execAnswerReceived_eq source a s h.1 h.2, ?_⟩
    obtain ⟨-, hact, hsil, -⟩ := (s.acts_iff source).1 h.1
    have m1 := Move.receipted s ⟨source, .card s.cardSlot, .answer a⟩ (some .taken) hact hsil
    have m2 : Move (s.receipted ⟨source, .card s.cardSlot, .answer a⟩ (some .taken)) (s.answered source a) :=
      .recorded _ _ _ _
    split
    · exact (Effects.move m1).thenMove m2
    · next i hi =>
      split
      · next ht => exact .settle (((Changes.move m1).thenMove m2).trans (State.takeAnswer_changes _ i a _ ht))
      · exact (Effects.move m1).thenMove m2
  · exact ⟨s, execAnswerReceived_of_not source a s h, .refl⟩

/-! ### DROP received (R114) -/

/-- A DROP received, in one form (R114). -/
theorem execDropReceived_eq (source : CardSlot) (d : Drop) (s : State) (h : s.acts source = true) (hd : d.wf = true) :
    exec (.dropReceived source d) s = .next
      (match (s.receipted ⟨source, .card s.cardSlot, .drop d⟩ (some .taken)).entryFacing d.circuit source with
        | none => s.receipted ⟨source, .card s.cardSlot, .drop d⟩ (some .taken)
        | some i =>
          if (s.entry i).state = .failed then s.receipted ⟨source, .card s.cardSlot, .drop d⟩ (some .taken)
          else (((s.receipted ⟨source, .card s.cardSlot, .drop d⟩ (some .taken)).failedAs i .dropped
            (some (DropReason.farReason d.reason))).unanswered i).endIfSettled) := by
  show execDropReceived source d s = _
  rw [execDropReceived, if_pos ⟨h, hd⟩, State.giveReceipt_eq]
  simp only [State.moveToFailed_eq]
  rfl

theorem execDropReceived_of_not (source : CardSlot) (d : Drop) (s : State)
    (h : ¬ (s.acts source = true ∧ d.wf = true)) : exec (.dropReceived source d) s = .next s := by
  show execDropReceived source d s = _
  rw [execDropReceived, if_neg h]

theorem execDropReceived_effects (source : CardSlot) (d : Drop) (s : State) :
    ∃ t, exec (.dropReceived source d) s = .next t ∧ Effects s t := by
  by_cases h : s.acts source = true ∧ d.wf = true
  · refine ⟨_, execDropReceived_eq source d s h.1 h.2, ?_⟩
    obtain ⟨-, hact, hsil, -⟩ := (s.acts_iff source).1 h.1
    have m := Move.receipted s ⟨source, .card s.cardSlot, .drop d⟩ (some .taken) hact hsil
    split
    · exact .move m
    · next i hi =>
      obtain ⟨hne, -, -⟩ := State.entryFacing_some _ _ _ hi
      split
      · exact .move m
      · next hf =>
        exact .settle (((Changes.move m).thenShift (.failed _ i _ _ ((EntryState.standing_iff _).2 ⟨hne, hf⟩))).thenMove
          (.unanswered _ i))
  · exact ⟨s, execDropReceived_of_not source d s h, .refl⟩

end Sys2Proof.Machine

/-! The outcomes of the frames that the part sent, and its timers and deadlines, as chains of moves. -/

namespace Sys2Proof.Machine

/-! ### Passes that write the table alone -/

/-- The part differs in its table alone. -/
def State.TableOnly (s t : State) : Prop := t = { s with table := t.table }

theorem State.TableOnly.onEntry {s t : State} (h : s.TableOnly t) (i : Index) (f : Entry → Entry) :
    s.TableOnly (t.onEntry i f) := by
  unfold State.TableOnly at h
  rw [h]
  rfl

theorem State.TableOnly.eq_of_entries {s t : State} (h : s.TableOnly t) (g : Index → Entry)
    (hg : ∀ i, t.entry i = g i) : t = { s with table := Vector.ofFn g } := by
  have ht : t.table = Vector.ofFn g := Vector.ext fun i hi => by
    rw [Vector.getElem_ofFn]
    exact hg ⟨i, hi⟩
  rw [← ht]
  exact h

/-- A pass whose step at an index writes that entry alone writes them all, each from what it was. -/
theorem State.eachEntry_onEntry (s : State) (f : Index → State → State) (g : Index → Entry → Entry)
    (hf : ∀ i t, s.TableOnly t → f i t = t.onEntry i (g i)) :
    s.eachEntry f = { s with table := Vector.ofFn fun i => g i (s.entry i) } := by
  have kept : ∀ i t, s.TableOnly t → s.TableOnly (f i t) := fun i t h => by rw [hf i t h]; exact h.onEntry i _
  refine (s.eachEntry_induct s.TableOnly f rfl kept).eq_of_entries _ fun i => ?_
  exact s.eachEntry_entry s.TableOnly f g rfl kept (fun i t h => by rw [hf i t h]; exact t.onEntry_entry_self i _)
    (fun i j t h hij => by rw [hf i t h]; exact t.onEntry_entry_other _ hij) i

/-! ### The end of a frame of this station -/

theorem State.ending_some (s : State) (o : SendOutcome) {f : TxFrame} (h : s.ending o = some f) :
    s.running = true ∧ s.line.buffer = some f ∧ SendOutcome.fits o f.phase = true := by
  unfold State.ending at h
  split at h
  · next hr => exact ⟨hr, Option.filter_eq_some_iff.1 h⟩
  · cases h

/-- A PENDING entry returned to DEFERRED has no answer timer to stop (R79, R93). -/
theorem Move.deferredFrom (s : State) (i : Index) (misses : Nat) (hs : (s.entry i).state = .pending)
    (hr : (s.entry i).role = .origin) (hm : misses ≤ Config.missLimit ∨ misses = (s.entry i).attempt) :
    Move s (s.moveToDeferred i misses) := by
  have h := Move.deferred s i misses (s.now + s.settings.p) (.inl hs) (fun _ => hr) hm
  rwa [State.timerWithout, if_neg (by rw [hs]; nofun)] at h

/-! ### BID (R92 to R94) -/

theorem Entry.sentBid_iff (e : Entry) (b : Bid) (far : CardSlot) : e.sentBid b far = true ↔
    e.state = .pending ∧ e.role = .origin ∧ e.circuit = b.circuit ∧ e.farSlot = far := by
  simp [Entry.sentBid, and_assoc]

/-- A BID's outcome at its PENDING origin (R92, R93, R94). -/
theorem State.bidEnds_effects (s : State) (o : SendOutcome) (f : TxFrame) (b : Bid) (i : Index)
    (hb : s.line.buffer = some f) (hf : f.frame.body = .bid b) (hs : (s.entry i).state = .pending)
    (hr : (s.entry i).role = .origin) : Effects s ((s.sendEnded o).bidEnds i b.attempt o) := by
  have hst : (s.entry i).state.standing = true := by rw [hs]; rfl
  have sent : ∀ t : State, t.line = s.line → Move t (t.sendEnded o) := fun t ht =>
    .sendEnded t o f (by rw [ht]; exact hb) (by rw [hf]; nofun)
  have onLine : ∃ x c, s.line.buffer = some x ∧ x.frame.body = .bid c ∧ b.attempt = c.attempt := ⟨f, b, hb, hf, rfl⟩
  have taken := Move.bidTaken s o f b i (s.now + s.settings.w) hb hf hs hr
  cases o with
  | taken => exact .move taken
  | busy => exact .move taken
  | noReceipt =>
    show Effects s (if b.attempt < Config.missLimit then _ else _)
    split
    · next hlt =>
      have counted := Move.recounted s i { s.entry i with attempt := b.attempt, misses := b.attempt }
        ⟨hst, rfl, .inr (.inr onLine), .inr hlt, .inl rfl, .inl rfl⟩
      exact (Effects.move counted).thenMove (sent (s.withEntry i _) rfl)
    · have counted := Move.recounted s i { s.entry i with attempt := b.attempt }
        ⟨hst, rfl, .inr (.inr onLine), .inl rfl, .inl rfl, .inl rfl⟩
      generalize he : ({ s.entry i with attempt := b.attempt } : Entry) = e at counted
      have hself : ((s.withEntry i e).sendEnded .noReceipt).entry i = e := s.withEntry_entry_self i e
      have h := ((Effects.move counted).thenMove (sent (s.withEntry i e) rfl)).thenMove
        (.deferredFrom _ i b.attempt (by rw [hself, ← he]; exact hs) (by rw [hself, ← he]; exact hr)
          (.inr (by rw [hself, ← he])))
      refine Eq.subst (motive := Effects s) ?_ h
      show State.withEntry ((s.withEntry i e).sendEnded .noReceipt) i
          { ((s.withEntry i e).sendEnded .noReceipt).entry i with
            state := .deferred, misses := b.attempt, deadline := some (s.now + s.settings.p) } =
        State.withEntry ((s.sendEnded .noReceipt).withEntry i { s.entry i with attempt := b.attempt, misses := b.attempt }) i
          { ((s.sendEnded .noReceipt).withEntry i
              { s.entry i with attempt := b.attempt, misses := b.attempt }).entry i with
            state := .deferred, misses := b.attempt, deadline := some (s.now + s.settings.p) }
      rw [hself, State.withEntry_entry_self, ← he]
      show State.withEntry ((s.sendEnded .noReceipt).withEntry i _) i _ = _
      rw [State.withEntry_withEntry, State.withEntry_withEntry]
  | lost => exact .move (sent s rfl)
  | outputFailed gap => exact .move (sent s rfl)
  | aborted => exact .move (sent s rfl)

theorem State.bidOutcomeAt_effects (s : State) (o : SendOutcome) (f : TxFrame) (b : Bid) (owner : Option Index)
    (far : CardSlot) (hb : s.line.buffer = some f) (hf : f.frame.body = .bid b) :
    Effects s ((s.sendEnded o).bidOutcomeAt owner far b o) := by
  have sent : Effects s (s.sendEnded o) := .move (.sendEnded s o f hb (by rw [hf]; nofun))
  cases owner with
  | none => exact sent
  | some i =>
    show Effects s (if (s.entry i).sentBid b far = true then _ else _)
    split
    · next h =>
      obtain ⟨hs, hr, -⟩ := (Entry.sentBid_iff _ _ _).1 h
      exact s.bidEnds_effects o f b i hb hf hs hr
    · exact sent

theorem execBidOutcome_effects (o : SendOutcome) (s : State) : ∃ t, exec (.bidOutcome o) s = .next t ∧ Effects s t := by
  refine ⟨_, rfl, ?_⟩
  split
  · next h =>
    obtain ⟨-, hb, -⟩ := s.ending_some o h
    rw [State.onLine_endSend]
    exact s.bidOutcomeAt_effects o _ _ _ _ hb rfl
  · exact .refl

/-! ### ANSWER, DROP and ROLL (R83, R104, R113) -/

theorem answersAfter_sublist (l : List AnswerItem) (a : Answer) (origin : CardSlot) (o : SendOutcome) :
    (answersAfter l a origin o).Sublist l := by
  cases o with
  | taken => exact List.filter_sublist
  | busy => exact List.filter_sublist
  | noReceipt => exact List.filter_sublist
  | lost => exact List.Sublist.refl _
  | outputFailed gap => exact List.Sublist.refl _
  | aborted => exact List.Sublist.refl _

theorem execAnswerOutcome_effects (o : SendOutcome) (s : State) :
    ∃ t, exec (.answerOutcome o) s = .next t ∧ Effects s t := by
  refine ⟨_, rfl, ?_⟩
  split
  · next origin a _ _ h =>
    obtain ⟨-, hb, -⟩ := s.ending_some o h
    rw [State.onLine_endSend]
    have left := answersAfter_sublist s.relink.answers a origin o
    exact (Effects.move (.sendEnded s o _ hb (by nofun))).thenMove
      (.answersLeft _ _ (fun _ ha => left.subset ha) left.length_le)
  · exact .refl

theorem Move.dropsTail (s : State) : Move s (s.onRelink fun r => { r with drops := r.drops.tail }) :=
  .dropsLeft s _ (by simp) fun d hd => ⟨d, List.mem_of_mem_tail hd, rfl, .inl rfl⟩

theorem State.dropUnreceipted_effects (s : State) : Effects s s.dropUnreceipted := by
  unfold State.dropUnreceipted
  split
  · exact .refl
  · next d rest hd =>
    split
    · next hlt =>
      refine .move (.dropsLeft s ({ d with sends := d.sends + 1 } :: rest) (by simp [hd]) fun x hx => ?_)
      rw [hd]
      rcases List.mem_cons.1 hx with rfl | hx
      · exact ⟨d, List.mem_cons_self, rfl, .inr hlt⟩
      · exact ⟨x, List.mem_cons_of_mem _ hx, rfl, .inl rfl⟩
    · refine (Effects.move (.dropsLeft s rest (by simp [hd]) fun x hx => ⟨x, ?_, rfl, .inl rfl⟩)).thenMove (.post _ _)
      rw [hd]
      exact List.mem_cons_of_mem _ hx

theorem execDropOutcome_effects (o : SendOutcome) (s : State) :
    ∃ t, exec (.dropOutcome o) s = .next t ∧ Effects s t := by
  refine ⟨_, rfl, ?_⟩
  split
  · next h =>
    obtain ⟨-, hb, -⟩ := s.ending_some o h
    rw [State.onLine_endSend]
    have sent : Effects s (s.sendEnded o) := .move (.sendEnded s o _ hb (by nofun))
    cases o with
    | taken => exact sent.thenMove (.dropsTail _)
    | busy => exact sent.thenMove (.dropsTail _)
    | noReceipt => exact sent.trans (State.dropUnreceipted_effects _)
    | lost => exact sent
    | outputFailed gap => exact sent
    | aborted => exact sent
  · exact .refl

theorem execRollOutcome_effects (o : RollOutcome) (s : State) :
    ∃ t, exec (.rollOutcome o) s = .next t ∧ Effects s t := by
  refine ⟨_, rfl, ?_⟩
  split
  · next h =>
    obtain ⟨-, hb, -⟩ := s.ending_some _ h
    rw [State.onLine_endSend]
    have sent : Effects s (s.sendEnded (RollOutcome.toSend o)) := .move (.sendEnded s _ _ hb (by nofun))
    cases o with
    | sent => exact sent.thenMove (.rollTaken _ _)
    | lost => exact sent
    | outputFailed gap => exact sent
    | aborted => exact sent
  · exact .refl

/-! ### CARRY (R142 to R147) -/

theorem State.markedEntry_none (s : State) (h : s.markedEntry = none) : ∀ u ∈ s.units, u.inFlight = false := by
  simpa [State.markedEntry] using h

theorem filter_of_unmarked (us : List QueuedUnit) (h : ∀ u ∈ us, u.inFlight = false) :
    us.filter (fun u => !u.inFlight) = us := List.filter_eq_self.2 fun u hu => by simp [h u hu]

theorem map_of_unmarked (us : List QueuedUnit) (h : ∀ u ∈ us, u.inFlight = false) :
    us.map (fun u => { u with inFlight := false }) = us := by
  have := List.map_congr_left (l := us) (f := fun u : QueuedUnit => { u with inFlight := false }) (g := id)
    fun u hu => by have := h u hu; cases u; simp_all
  rw [this, List.map_id]

/-- The units of a CARRY that was not taken stay, unmarked (R144, R145, R147). -/
theorem Effects.unmarked (s : State) (o : SendOutcome) (f : TxFrame) (hb : s.line.buffer = some f) (ho : o ≠ .taken) :
    Effects s (s.sendEnded o).unmarkUnits := by
  have h := Move.carryEnded s o f hb
  rw [if_neg ho] at h
  exact .move h

theorem Effects.unmarkedNone (s : State) (o : SendOutcome) (f : TxFrame) (hb : s.line.buffer = some f)
    (hn : s.markedEntry = none) : Effects s (s.sendEnded o) := by
  have h := Move.carryEnded s o f hb
  have hu := s.markedEntry_none hn
  rw [filter_of_unmarked _ hu, map_of_unmarked _ hu, ite_self] at h
  exact .move h

/-- A strike count does not outlast the move into PENDING (R17, R146). -/
theorem State.pendingAs_struck (s : State) (i : Index) (noReceipt busy misses : Nat) :
    (s.withEntry i { s.entry i with noReceipt := noReceipt, busy := busy }).pendingAs i misses = s.pendingAs i misses := by
  generalize he : ({ s.entry i with noReceipt := noReceipt, busy := busy } : Entry) = e
  have hself : (s.withEntry i e).entry i = e := s.withEntry_entry_self i e
  have htable : (s.withEntry i e).table = s.table.set i e := rfl
  unfold State.pendingAs State.timerWithout State.switchWithout State.inboundWithout
  simp only [hself, htable, Vector.set_set]
  subst he
  rfl

/-- Strikes counted, or struck out (R144, R145, R146). -/
theorem Effects.struck (s : State) (i : Index) (noReceipt busy : Nat) (out : Prop) [Decidable out]
    (hs : (s.entry i).state.standing = true)
    (h : ¬ out → noReceipt < Config.noReceiptLimit ∧ busy < Config.busyLimit) :
    Effects s (if out then
        (s.withEntry i { s.entry i with noReceipt := noReceipt, busy := busy }).moveToPending i 0
      else s.withEntry i { s.entry i with noReceipt := noReceipt, busy := busy }) := by
  split
  · rw [State.moveToPending_eq, State.pendingAs_struck]
    exact .move (.returned s i 0 hs (by decide))
  · next hn =>
    obtain ⟨hnr, hbu⟩ := h hn
    exact .move (.recounted s i _ ⟨hs, rfl, .inl rfl, .inl rfl, .inr hnr, .inr hbu⟩)

theorem State.strikeBusy_effects (s : State) (i : Index) (hs : (s.entry i).state.standing = true) :
    Effects s (s.strikeBusy i) := by
  have hb : ((s.onEntry i fun e => { e with busy := e.busy + 1, noReceipt := 0 }).entry i).busy = (s.entry i).busy + 1 := by
    simp
  unfold State.strikeBusy
  dsimp only
  rw [hb]
  exact Effects.struck s i 0 ((s.entry i).busy + 1) _ hs fun h => ⟨by decide, Nat.lt_of_not_le h⟩

theorem State.strikeNoReceipt_effects (s : State) (i : Index) (hs : (s.entry i).state.standing = true) :
    Effects s (s.strikeNoReceipt i) := by
  have hn : ((s.onEntry i fun e => { e with noReceipt := e.noReceipt + 1, busy := 0 }).entry i).noReceipt
      = (s.entry i).noReceipt + 1 := by simp
  unfold State.strikeNoReceipt
  dsimp only
  rw [hn]
  exact Effects.struck s i ((s.entry i).noReceipt + 1) 0 _ hs fun h => ⟨Nat.lt_of_not_le h, by decide⟩

/-- A CARRY's outcome at the entry of the marked units (R142 to R147). -/
theorem State.carryEnds_effects (s : State) (o : SendOutcome) (f : TxFrame) (i : Index) (hb : s.line.buffer = some f) :
    Effects s ((s.sendEnded o).carryEnds i o) := by
  have unmarked := Effects.unmarked s o f hb
  cases o with
  | taken =>
    have released := Move.carryEnded s .taken f hb
    rw [if_pos rfl] at released
    show Effects s (if (s.entry i).state.agreed then _ else _)
    split
    · next ha =>
      exact (Effects.move released).thenMove
        (.recounted _ i _ ⟨State.agreed_standing ha, rfl, .inl rfl, .inl rfl, .inr (show 0 < Config.noReceiptLimit by decide),
          .inr (show 0 < Config.busyLimit by decide)⟩)
    · exact .move released
  | busy =>
    show Effects s (if (s.entry i).state.agreed then _ else _)
    split
    · next ha => exact (unmarked nofun).trans (State.strikeBusy_effects _ i (State.agreed_standing ha))
    · exact unmarked nofun
  | noReceipt =>
    show Effects s (if (s.entry i).state.agreed then _ else _)
    split
    · next ha => exact (unmarked nofun).trans (State.strikeNoReceipt_effects _ i (State.agreed_standing ha))
    · exact unmarked nofun
  | lost => exact unmarked nofun
  | outputFailed gap => exact unmarked nofun
  | aborted => exact unmarked nofun

theorem execCarryOutcome_effects (o : SendOutcome) (s : State) :
    ∃ t, exec (.carryOutcome o) s = .next t ∧ Effects s t := by
  refine ⟨_, rfl, ?_⟩
  split
  · next h =>
    obtain ⟨-, hb, -⟩ := s.ending_some o h
    rw [State.onLine_endSend]
    dsimp only
    split
    · exact s.carryEnds_effects o _ _ hb
    · next hn => exact Effects.unmarkedNone s o _ hb hn
  · exact .refl

/-! ### Timers and deadlines (R81, R87, R95, R97, R102) -/

theorem Changes.elapseTo (s : State) (tick : Nat) : Changes s (s.elapseTo tick) := .move (.elapsed s _)

theorem execSettleTimerExpiry_effects (s : State) : ∃ t, exec .settleTimerExpiry s = .next t ∧ Effects s t := by
  refine ⟨_, rfl, ?_⟩
  split
  · next tick _ h => exact .settle ((Changes.elapseTo s tick).thenShift (.timedOut _ tick h))
  · exact .refl

theorem State.biddingEntry_some (s : State) {i : Index} (h : s.biddingEntry = some i) : (s.entry i).state = .bidding := by
  simpa using s.findEntry_some _ h

theorem State.answerTimeout_move (s : State) (i : Index) (hs : (s.entry i).state = .bidding) :
    Move s (s.answerTimeout i) := by
  unfold State.answerTimeout
  dsimp only
  split
  · next hlt =>
    rw [State.moveToPending_eq]
    exact .returned s i _ (by rw [hs]; rfl) hlt
  · rw [State.stopAnswerTimer_eq]
    exact .deferred s i _ (s.now + s.settings.p) (.inr hs) (fun h => by rw [hs] at h; cases h) (.inr rfl)

theorem execAnswerTimerExpiry_effects (s : State) : ∃ t, exec .answerTimerExpiry s = .next t ∧ Effects s t := by
  refine ⟨_, rfl, ?_⟩
  split
  · next i _ _ hi =>
    exact (Effects.move (.elapsed s _)).thenMove (State.answerTimeout_move _ i (s.biddingEntry_some hi))
  · exact .refl

/-- A deadline that passes fails its entry (R97, R102). -/
theorem Effects.deadline (s : State) (i : Index) (tick : Nat) (hs : (s.entry i).state.standing = true) :
    Effects s ((s.elapseTo tick).moveToFailed i .absent none).endIfSettled := by
  rw [State.moveToFailed_eq]
  exact .settle ((Changes.elapseTo s tick).thenShift (.failed _ i _ _ hs))

theorem execDeferredDeadline_effects (i : Index) (s : State) :
    ∃ t, exec (.deferredDeadline i) s = .next t ∧ Effects s t := by
  refine ⟨_, rfl, ?_⟩
  split
  · next hs _ => exact .deadline s i _ (by rw [hs]; rfl)
  · exact .refl

theorem execAbsentDeadline_effects (i : Index) (s : State) :
    ∃ t, exec (.absentDeadline i) s = .next t ∧ Effects s t := by
  refine ⟨_, rfl, ?_⟩
  split
  · next hs _ _ => exact .deadline s i _ (by rw [hs]; rfl)
  · exact .refl

theorem execOpenBidExpiry_effects (s : State) : ∃ t, exec .openBidExpiry s = .next t ∧ Effects s t := by
  refine ⟨_, rfl, ?_⟩
  split
  · exact (Effects.move (.elapsed s _)).thenMove (.recorded _ _ _ _)
  · exact .refl

/-! ### Gather close (R78 to R80) -/

theorem State.dropped_move (s : State) (i : Index) (reason : DropReason) (h : (s.entry i).state ≠ .empty) :
    Move s (s.addDropFor i reason) := by
  unfold State.addDropFor
  rw [State.addDrop_eq]
  exact .dropped s _ _ _ ⟨i, h, rfl⟩

theorem State.failedAs_entry_self (s : State) (i : Index) (r : FailReason) (f : Option FarReason) :
    (s.failedAs i r f).entry i = { s.entry i with state := .failed, failure := some ⟨r, f⟩, deadline := none } := by
  simp [State.entry, State.failedAs]

/-- The expiry check of one entry, in one form (R78). -/
theorem State.expiryCheck_eq (i : Index) (s : State) : s.expiryCheck i =
    if (s.entry i).state = .pending ∧ s.settings.survives (s.entry i).cls s.supply.m = false then
      if (s.entry i).role = .origin then
        (s.failedAs i .expired none).dropped (s.entry i).circuit (s.entry i).farSlot .expired
      else s.failedAs i .expired none
    else s := by
  have h : (s.moveToFailed i .expired none).addDropFor i .expired =
      (s.failedAs i .expired none).dropped (s.entry i).circuit (s.entry i).farSlot .expired := by
    rw [State.moveToFailed_eq, State.addDropFor, State.addDrop_eq, State.failedAs_entry_self]
  unfold State.expiryCheck
  dsimp only
  rw [h, State.moveToFailed_eq]

theorem State.expiryCheck_changes (i : Index) (s : State) : Changes s (s.expiryCheck i) := by
  rw [State.expiryCheck_eq]
  split
  · next h =>
    have hs : (s.entry i).state.standing = true := by rw [h.1]; rfl
    have failed := Changes.shift (.failed s i .expired none hs)
    split
    · exact failed.thenMove (.dropped _ _ _ _ ⟨i, by rw [State.failedAs_entry_self]; nofun, by
        rw [State.failedAs_entry_self]⟩)
    · exact failed
  · exact .refl

theorem State.rosterRule_changes (i : Index) (s : State) : Changes s (s.rosterRule i) := by
  unfold State.rosterRule
  dsimp only
  split
  · next h =>
    obtain ⟨hs, hr, -⟩ := h
    exact .move (.deferredFrom s i _ hs hr (.inl (Nat.le_refl _)))
  · exact .refl

theorem State.dropped_campaign (s : State) (c : Circuit) (f : CardSlot) (r : DropReason) :
    (s.dropped c f r).relink.campaign = s.relink.campaign := by
  unfold State.dropped
  split
  · rfl
  · split <;> rfl

theorem State.expiryCheck_campaign (i : Index) (s : State) : (s.expiryCheck i).relink.campaign = s.relink.campaign := by
  rw [State.expiryCheck_eq]
  split
  · split
    · rw [State.dropped_campaign]; rfl
    · rfl
  · rfl

theorem State.rosterRule_campaign (i : Index) (s : State) : (s.rosterRule i).relink.campaign = s.relink.campaign := by
  unfold State.rosterRule
  dsimp only
  split <;> rfl

theorem State.eachEntry_campaign (f : Index → State → State) (hf : ∀ i t, (f i t).relink.campaign = t.relink.campaign)
    (s : State) : (s.eachEntry f).relink.campaign = s.relink.campaign :=
  State.eachEntry_induct (fun t => t.relink.campaign = s.relink.campaign) f s rfl fun i t h => (hf i t).trans h

theorem State.withEntry_self (s : State) (i : Index) : s.withEntry i (s.entry i) = s := by
  simp [State.withEntry, State.entry]

theorem Entry.withAbsent_of (e : Entry) (deadline : Nat) (h : e.state = .pending ∧ e.role = .far) :
    e.withAbsent deadline = { e with deadline := some deadline } := if_pos h

theorem Entry.withAbsent_of_not (e : Entry) (deadline : Nat) (h : ¬ (e.state = .pending ∧ e.role = .far)) :
    e.withAbsent deadline = e := if_neg h

/-- The third pass of gather close (R80). -/
theorem State.farDeadlines_eq (s : State) : s.eachEntry State.farDeadline =
    { s with table := s.table.map (Entry.withAbsent (s.now + s.settings.p)) } := by
  rw [s.eachEntry_onEntry State.farDeadline (fun _ => Entry.withAbsent (s.now + s.settings.p)) fun i t h => ?_]
  · have : s.table.map (Entry.withAbsent (s.now + s.settings.p)) =
        Vector.ofFn fun i => Entry.withAbsent (s.now + s.settings.p) (s.entry i) := Vector.ext fun i hi => by
      rw [Vector.getElem_ofFn, Vector.getElem_map]
      rfl
    rw [this]
  · have hnow : t.now + t.settings.p = s.now + s.settings.p := by rw [h]; rfl
    have hw : t.onEntry i (Entry.withAbsent (s.now + s.settings.p)) =
        t.withEntry i ((t.entry i).withAbsent (s.now + s.settings.p)) := rfl
    unfold State.farDeadline
    rw [hw]
    dsimp only
    by_cases hp : (t.entry i).state = .pending ∧ (t.entry i).role = .far
    · rw [if_pos hp, hnow, (t.entry i).withAbsent_of _ hp]
      rfl
    · rw [if_neg hp, (t.entry i).withAbsent_of_not _ hp]
      exact (t.withEntry_self i).symm

/-- The first two passes of gather close (R78, R79). -/
def State.gatherSorted (s : State) : State := (s.eachEntry State.expiryCheck).eachEntry State.rosterRule

theorem State.gatherSorted_changes (s : State) : Changes s s.gatherSorted :=
  (Changes.eachEntry _ State.expiryCheck_changes s).trans (Changes.eachEntry _ State.rosterRule_changes _)

theorem State.gatherSorted_campaign (s : State) : s.gatherSorted.relink.campaign = s.relink.campaign := by
  unfold State.gatherSorted
  rw [State.eachEntry_campaign _ State.rosterRule_campaign, State.eachEntry_campaign _ State.expiryCheck_campaign]

/-- Gather close, its third pass in one form (R78, R80). -/
theorem State.closeGather_eq (s : State) : s.closeGather =
    { s.gatherSorted with
      table := s.gatherSorted.table.map (Entry.withAbsent (s.gatherSorted.now + s.gatherSorted.settings.p))
      relink := { s.gatherSorted.relink with
        campaign := .contend, gatherTimer := none
        settleTimer := .runsOutAt (s.gatherSorted.now + s.gatherSorted.settings.q) } } := by
  have hg : (s.eachEntry State.expiryCheck).eachEntry State.rosterRule = s.gatherSorted := rfl
  unfold State.closeGather
  simp only [hg]
  generalize s.gatherSorted = u
  rw [State.farDeadlines_eq]
  rfl

theorem execGatherClose_effects (s : State) : ∃ t, exec .gatherClose s = .next t ∧ Effects s t := by
  refine ⟨_, rfl, ?_⟩
  split
  · next tick _ hc ht =>
    rw [State.closeGather_eq]
    have hs := (s.elapseTo tick).gatherSorted_changes
    refine .settle (Changes.thenMove ((Changes.elapseTo s tick).trans hs) (.gathered _ _ _ ?_))
    rw [State.gatherSorted_campaign]
    exact hc
  · exact .refl

end Sys2Proof.Machine

/-! The Slot Switch's events, WRITE ENTRY, CLEAR ENTRY and the passing of time, as chains of moves. -/

namespace Sys2Proof.Machine

/-! ### Filling the checkers (R126) -/

/-- No checker is idle while an index waits (R126). -/
def SlotSwitch.Working (w : SlotSwitch) : Prop := w.checkQueue ≠ [] → ∀ k : Fin 4, w.checkers[k] ≠ none

theorem SlotSwitch.fillOne_of_working (b : Bool) (w : SlotSwitch) (k : Fin 4) (h : w.Working) : w.fillOne b k = w := by
  unfold SlotSwitch.fillOne
  split
  · next i rest hk hq => exact absurd hk (h (by rw [hq]; nofun) k)
  · rfl
  · rfl

theorem SlotSwitch.fill_of_working (b : Bool) (w : SlotSwitch) (h : w.Working) : w.fill b = w := by
  rw [SlotSwitch.fill_eq, w.fillOne_of_working b 0 h, w.fillOne_of_working b 1 h, w.fillOne_of_working b 2 h,
    w.fillOne_of_working b 3 h]

/-- One take leaves its checker at work where an index still waits, and no other checker idle that was at work. -/
theorem SlotSwitch.fillOne_working (b : Bool) (w : SlotSwitch) (k j : Fin 4)
    (h : j = k ∨ (w.checkQueue ≠ [] → w.checkers[j] ≠ none)) :
    (w.fillOne b k).checkQueue ≠ [] → (w.fillOne b k).checkers[j] ≠ none := by
  unfold SlotSwitch.fillOne
  split
  · next i rest hk hq =>
    intro _
    by_cases hjk : j = k
    · subst hjk; simp
    · have hne : k.val ≠ j.val := fun e => hjk (Fin.ext e.symm)
      have hj := h.resolve_left hjk (by rw [hq]; nofun)
      simpa [Vector.getElem_set_ne _ _ hne] using hj
  · next hk hq => exact fun hne => absurd hq hne
  · next c hk =>
    intro hne
    rcases h with rfl | h
    · rw [hk]; nofun
    · exact h hne

theorem SlotSwitch.fill_working (b : Bool) (w : SlotSwitch) : (w.fill b).Working := by
  intro hq j
  rw [SlotSwitch.fill_eq] at hq ⊢
  have h0 : j = 0 → (w.fillOne b 0).checkQueue ≠ [] → (w.fillOne b 0).checkers[j] ≠ none := fun e =>
    w.fillOne_working b 0 j (.inl e)
  generalize w.fillOne b 0 = w0 at h0 hq
  have h1 : j = 0 ∨ j = 1 → (w0.fillOne b 1).checkQueue ≠ [] → (w0.fillOne b 1).checkers[j] ≠ none := fun e =>
    w0.fillOne_working b 1 j (e.symm.imp_right fun e => h0 e)
  generalize w0.fillOne b 1 = w1 at h1 hq
  have h2 : (j = 0 ∨ j = 1) ∨ j = 2 → (w1.fillOne b 2).checkQueue ≠ [] → (w1.fillOne b 2).checkers[j] ≠ none := fun e =>
    w1.fillOne_working b 2 j (e.symm.imp_right fun e => h1 e)
  generalize w1.fillOne b 2 = w2 at h2 hq
  exact w2.fillOne_working b 3 j ((show j = 3 ∨ ((j = 0 ∨ j = 1) ∨ j = 2) by omega).imp_right fun e => h2 e) hq

theorem SlotSwitch.fill_fill (a b : Bool) (w : SlotSwitch) : (w.fill a).fill b = w.fill a :=
  SlotSwitch.fill_of_working b _ (w.fill_working a)

/-! ### The end of a check (R126, R127) -/

/-- A check withdrawn from a checker that is idle already is withdrawn from the one that held it. -/
theorem SlotSwitch.withdraw_idle (w : SlotSwitch) (k : Fin 4) (c : Checker) (hc : w.checkers[k] = some c) :
    SlotSwitch.withdraw { w with checkers := w.checkers.set k none } c.index = w.withdraw c.index := by
  have h : (w.checkers.set k none).map (dropChecker c.index) = w.checkers.map (dropChecker c.index) := by
    ext1 j hj
    rw [Vector.getElem_map, Vector.getElem_map]
    by_cases hjk : k.val = j
    · subst hjk
      simp only [Fin.getElem_fin] at hc
      simp [hc, dropChecker]
    · rw [Vector.getElem_set_ne _ _ hjk]
  unfold SlotSwitch.withdraw
  dsimp only
  rw [h]

/-- The checker that ends is idle, and the entry of its index fails: its check is withdrawn once (R15, R126, R128). -/
theorem State.failedAs_ofChecker (s : State) (k : Fin 4) (c : Checker) (hc : s.switch.checkers[k] = some c)
    (r : FailReason) (f : Option FarReason) :
    (State.failedAs { s with switch := { s.switch with checkers := s.switch.checkers.set k none } } c.index r f).onSwitch
      (fun w => w.fill false) = s.failedAs c.index r f := by
  have h : SlotSwitch.fill false (State.switchWithout
      { s with switch := { s.switch with checkers := s.switch.checkers.set k none } } c.index) =
      s.switchWithout c.index := by
    show SlotSwitch.fill false (SlotSwitch.withdraw
      { s.switch with checkers := s.switch.checkers.set k none, inbound := s.inboundWithout c.index } c.index) = _
    have := SlotSwitch.withdraw_idle { s.switch with inbound := s.inboundWithout c.index } k c hc
    rw [show SlotSwitch.withdraw { s.switch with
        checkers := s.switch.checkers.set k none, inbound := s.inboundWithout c.index } c.index =
      SlotSwitch.withdraw { s.switch with inbound := s.inboundWithout c.index } c.index from this]
    exact SlotSwitch.fill_fill false false _
  unfold State.failedAs State.onSwitch
  dsimp only
  rw [h]
  rfl

theorem State.dropped_onSwitch (s : State) (c : Circuit) (f : CardSlot) (r : DropReason) (g : SlotSwitch → SlotSwitch) :
    (s.dropped c f r).onSwitch g = (s.onSwitch g).dropped c f r := by
  unfold State.dropped
  rw [State.onSwitch_relink]
  split
  · rfl
  · split <;> rfl

theorem State.inUse_of_state {s : State} (i : Index) {st : EntryState} (h : (s.entry i).state = st) (hne : st ≠ .empty) :
    s.inUse := .inr ⟨i, h ▸ hne⟩

/-- PASS, as a chain (R101, R111, R126, R127). -/
theorem State.checkPass_changes (s : State) (k : Fin 4) (c : Checker) (hc : s.switch.checkers[k] = some c) :
    Changes s ((State.checkPass { s with switch := { s.switch with checkers := s.switch.checkers.set k none } }
      c.index).onSwitch fun w => w.fill false) := by
  have he : State.entry { s with switch := { s.switch with checkers := s.switch.checkers.set k none } } c.index =
      s.entry c.index := rfl
  have connected := fun h => Changes.shift (.connected s k c hc h)
  rw [State.checkPass_eq, he]
  split
  · next hs =>
    exact (Changes.move (.queued s ((s.entry c.index).answer .match_) (.inr ⟨c.index, by rw [hs]; nofun⟩)
      (.inr ⟨c.index, _, hs, rfl⟩))).thenShift (.connected (s.queued _) k c hc (.inr (.inl hs)))
  · next hs => exact connected (.inr (.inr hs))
  · next hs => exact connected (.inl hs)
  · next hc1 hc2 hc3 =>
    exact .shift (.freed s k c hc fun h => h.elim hc3 fun h => h.elim hc1 hc2)

/-- FAIL, as a chain (R101, R111, R112, R126, R127). -/
theorem State.checkFail_changes (s : State) (k : Fin 4) (c : Checker) (hc : s.switch.checkers[k] = some c) :
    Changes s ((State.checkFail { s with switch := { s.switch with checkers := s.switch.checkers.set k none } }
      c.index).onSwitch fun w => w.fill false) := by
  have he : State.entry { s with switch := { s.switch with checkers := s.switch.checkers.set k none } } c.index =
      s.entry c.index := rfl
  have dropped : (s.entry c.index).state.standing = true →
      Changes s (((State.failedAs { s with switch := { s.switch with checkers := s.switch.checkers.set k none } } c.index
        .clash none).dropped (s.entry c.index).circuit (s.entry c.index).farSlot .clash).onSwitch fun w => w.fill false) := by
    intro hs
    rw [State.dropped_onSwitch, State.failedAs_ofChecker s k c hc]
    exact (Changes.shift (.failed s c.index .clash none hs)).thenMove
      (.dropped _ _ _ _ ⟨c.index, by rw [State.failedAs_entry_self]; nofun, by rw [State.failedAs_entry_self]⟩)
  rw [State.checkFail_eq, he]
  split
  · next hs =>
    have h : Changes s ((s.queued ((s.entry c.index).answer .refuseClash)).failedAs c.index .clash none) :=
      (Changes.move (.queued s ((s.entry c.index).answer .refuseClash) (.inr ⟨c.index, by rw [hs]; nofun⟩)
        (.inr ⟨c.index, _, hs, rfl⟩))).thenShift
        (.failed (s.queued _) c.index .clash none (by show (s.entry c.index).state.standing = true; rw [hs]; rfl))
    rw [← State.failedAs_ofChecker (s.queued _) k c hc] at h
    exact h
  · next hs => exact dropped (by rw [hs]; rfl)
  · next hs => exact dropped (by rw [hs]; rfl)
  · next hc1 hc2 hc3 =>
    exact .shift (.freed s k c hc fun h => h.elim hc3 fun h => h.elim hc1 hc2)

theorem State.endCheck_effects (s : State) (k : Fin 4) (c : Checker) (hc : s.switch.checkers[k] = some c)
    (r : CheckResult) : Effects s (s.endCheck k c.index r) := by
  cases r with
  | pass => exact .settle (s.checkPass_changes k c hc)
  | fail => exact .settle (s.checkFail_changes k c hc)

/-! ### Highway slots (R119, R126) -/

theorem Checker.result_none (c : Checker) (b : Byte) (h : c.result b = none) : c.samples + 1 < Config.quietReadings := by
  rw [Checker.result_eq] at h
  split at h
  · cases h
  · next hn => exact Nat.lt_of_not_le fun h4 => hn (.inr (Nat.le_of_succ_le_succ h4))

theorem State.readChecker_effects (s : State) (n b : Byte) (k : Fin 4) : Effects s (s.readChecker n b k) := by
  unfold State.readChecker
  split
  · next c hc =>
    split
    · split
      · exact s.endCheck_effects k c hc _
      · next hr => exact .move (.readingCounted s k c hc (c.result_none b hr))
    · exact .refl
  · exact .refl

theorem State.readSlot_effects (s : State) (n b : Byte) : Effects s (s.readSlot n b) := by
  unfold State.readSlot
  generalize List.finRange 4 = l
  induction l generalizing s with
  | nil => exact .refl
  | cons k l ih => exact (s.readChecker_effects n b k).trans (ih _)

theorem State.drives_live (s : State) (i : Index) (h : s.drives i = true) : (s.entry i).state = .live := by
  simp only [State.drives, Bool.and_eq_true, beq_iff_eq] at h
  exact h.1.1

theorem State.passSlot_effects (s : State) : Effects s s.passSlot := by
  unfold State.passSlot
  split
  · exact .refl
  · next x hx =>
    split
    · next hlt =>
      dsimp only
      generalize ht : (s.onSwitch fun w =>
        { w.fillBefore x.frame (BitVec.ofNat 8 x.slot) with timing := some { x with slot := x.slot + 1 } }) = t
      generalize s.nextByte x.frame (BitVec.ofNat 8 x.slot) = b
      obtain ⟨inbound, hcopy, hin⟩ := t.copySlot_eq (BitVec.ofNat 8 x.slot) b
      refine Relation.ReflTransGen.trans ?_ (State.readSlot_effects _ _ _)
      rw [hcopy, ← ht]
      refine Effects.move (.slotRun s x _ inbound hx hlt fun c => ?_)
      by_cases hc : t.copiesInto (BitVec.ofNat 8 x.slot) c (List.finRange 64)
      · obtain ⟨i, -, ⟨hd, -⟩, hch⟩ := hc
        exact .inr ⟨i, by have := t.drives_live i hd; rwa [← ht] at this, by rwa [← ht] at hch⟩
      · have := hin c
        rw [if_neg hc, ← ht] at this
        exact .inl this
    · exact .refl

theorem State.passSlots_effects (n : Nat) (s : State) : Effects s (State.passSlots n s) := by
  induction n generalizing s with
  | zero => exact .refl
  | succ n ih => exact s.passSlot_effects.trans (ih _)

theorem State.passTo_effects (s : State) (n : Nat) : Effects s (s.passTo n) := by
  unfold State.passTo
  split
  · exact .refl
  · exact State.passSlots_effects _ s

/-! ### The highway state and the power state while slots pass -/

/-- The highway state and the power state stand. -/
structure State.Abides (s t : State) : Prop where
  highway : t.switch.highway = s.switch.highway
  power : t.supply.power = s.supply.power

theorem State.Abides.refl (s : State) : s.Abides s := ⟨rfl, rfl⟩

theorem State.Abides.trans {s t u : State} (h : s.Abides t) (g : t.Abides u) : s.Abides u :=
  ⟨g.highway.trans h.highway, g.power.trans h.power⟩

theorem State.Abides.running {s t : State} (h : s.Abides t) : t.running = s.running := by
  unfold State.running
  rw [h.power]

theorem State.endIfSettled_abides (s : State) : s.Abides s.endIfSettled := by
  by_cases h : s.settled
  · rw [s.endIfSettled_of_settled h]; exact ⟨rfl, rfl⟩
  · rw [s.endIfSettled_of_not h]; exact .refl s

theorem State.dropped_abides (s : State) (c : Circuit) (f : CardSlot) (r : DropReason) : s.Abides (s.dropped c f r) := by
  unfold State.dropped
  split
  · exact .refl s
  · split <;> exact ⟨rfl, rfl⟩

theorem State.failedAs_abides (s : State) (i : Index) (r : FailReason) (f : Option FarReason) :
    s.Abides (s.failedAs i r f) := ⟨SlotSwitch.withdraw_highway _ _, rfl⟩

theorem State.checkPass_abides (s : State) (i : Index) : s.Abides (s.checkPass i) := by
  rw [State.checkPass_eq]
  split <;> exact ⟨rfl, rfl⟩

theorem State.checkFail_abides (s : State) (i : Index) : s.Abides (s.checkFail i) := by
  have failed := s.failedAs_abides i .clash none
  rw [State.checkFail_eq]
  split
  · exact ⟨failed.highway, failed.power⟩
  · exact failed.trans (State.dropped_abides _ _ _ _)
  · exact failed.trans (State.dropped_abides _ _ _ _)
  · exact .refl s

theorem State.endCheck_abides (s : State) (k : Fin 4) (i : Index) (r : CheckResult) : s.Abides (s.endCheck k i r) := by
  have free : s.Abides (s.onSwitch fun w => { w with checkers := w.checkers.set k none }) := ⟨rfl, rfl⟩
  have filled : ∀ t : State, t.Abides (t.onSwitch fun w => w.fill false) := fun t => ⟨SlotSwitch.fill_highway _ _, rfl⟩
  unfold State.endCheck
  cases r with
  | pass => exact ((free.trans (State.checkPass_abides _ i)).trans (filled _)).trans (State.endIfSettled_abides _)
  | fail => exact ((free.trans (State.checkFail_abides _ i)).trans (filled _)).trans (State.endIfSettled_abides _)

theorem State.readChecker_abides (s : State) (n b : Byte) (k : Fin 4) : s.Abides (s.readChecker n b k) := by
  unfold State.readChecker
  split
  · split
    · split
      · exact s.endCheck_abides k _ _
      · exact ⟨rfl, rfl⟩
    · exact .refl s
  · exact .refl s

theorem State.readSlot_abides (s : State) (n b : Byte) : s.Abides (s.readSlot n b) := by
  unfold State.readSlot
  generalize List.finRange 4 = l
  induction l generalizing s with
  | nil => exact .refl s
  | cons k l ih => exact (s.readChecker_abides n b k).trans (ih _)

theorem State.passSlot_abides (s : State) : s.Abides s.passSlot := by
  unfold State.passSlot
  split
  · exact .refl s
  · split
    · dsimp only
      refine State.Abides.trans ?_ (State.readSlot_abides _ _ _)
      obtain ⟨inbound, hcopy, -⟩ := State.copySlot_eq (s.onSwitch _) _ _
      rw [hcopy]
      exact ⟨rfl, rfl⟩
    · exact .refl s

theorem State.passSlots_abides (n : Nat) (s : State) : s.Abides (State.passSlots n s) := by
  induction n generalizing s with
  | zero => exact .refl s
  | succ n ih => exact s.passSlot_abides.trans (ih _)

theorem State.passTo_abides (s : State) (n : Nat) : s.Abides (s.passTo n) := by
  unfold State.passTo
  split
  · exact .refl s
  · exact State.passSlots_abides _ s

/-! ### The loss of the highway (R120) -/

/-- The answer that an entry in CHECKING gives as its standing check ends cannot-run (R101, R120). -/
def State.answerUnlit (checks : SlotSwitch) (i : Index) (s : State) : State :=
  if checks.checking i = true ∧ (s.entry i).state = .checking then s.queued ((s.entry i).answer .matchParked) else s

/-- The answers that the loss of the highway queues, in index order (R120). -/
def State.unlitAnswers (s : State) : State := s.eachEntry (State.answerUnlit s.switch)

/-- The loss for one entry, in one form (R120). -/
theorem State.loseEntry_eq (checks : SlotSwitch) (i : Index) (s : State) :
    s.loseEntry checks i = (s.answerUnlit checks i).withEntry i ((s.entry i).unlit checks i) := by
  have self := (s.withEntry_self i).symm
  unfold State.loseEntry State.answerUnlit Entry.unlit State.checkCannotRun
  cases hc : checks.checking i with
  | false =>
    by_cases hl : (s.entry i).state = .live
    · simp only [hl, if_true, true_or]; rfl
    · simpa [hl, hc] using self
  | true =>
    cases hs : (s.entry i).state with
    | live => rfl
    | checking => rfl
    | joining => rfl
    | empty => simpa using self
    | parked => simpa using self
    | pending => simpa using self
    | bidding => simpa using self
    | deferred => simpa using self
    | failed => simpa using self

theorem State.answerUnlit_changes (checks : SlotSwitch) (i : Index) (s : State) : Changes s (s.answerUnlit checks i) := by
  unfold State.answerUnlit
  split
  · next h => exact .move (.queued s _ (.inr ⟨i, by rw [h.2]; nofun⟩) (.inr ⟨i, _, h.2, rfl⟩))
  · exact .refl

theorem State.unlitAnswers_changes (s : State) : Changes s s.unlitAnswers :=
  Changes.eachEntry _ (State.answerUnlit_changes s.switch) s

/-- The answers write the Answer List alone. -/
theorem State.answerUnlit_rest (checks : SlotSwitch) (i : Index) (s : State) :
    s.answerUnlit checks i = { s with relink := { s.relink with answers := (s.answerUnlit checks i).relink.answers } } := by
  unfold State.answerUnlit
  split <;> rfl

theorem State.answerUnlit_table (checks : SlotSwitch) (i : Index) (s : State) (table : Vector Entry 64)
    (h : table[i] = s.table[i]) :
    State.answerUnlit checks i { s with table := table } = { s.answerUnlit checks i with table := table } := by
  have he : State.entry { s with table := table } i = s.entry i := h
  unfold State.answerUnlit
  rw [he]
  split <;> rfl

/-- Of a pass of the loss, the answers and the table stand apart: each entry answers as it stood before the pass (R120). -/
theorem State.loseEntries_eq (checks : SlotSwitch) (l : List Index) (hl : l.Nodup) (s : State) (table : Vector Entry 64)
    (h : ∀ i ∈ l, table[i] = s.table[i]) :
    ∃ v : Vector Entry 64,
      l.foldl (fun t i => t.loseEntry checks i) { s with table := table } =
        { l.foldl (fun t i => t.answerUnlit checks i) s with table := v }
      ∧ ∀ j : Index, v[j] = if j ∈ l then (s.entry j).unlit checks j else table[j] := by
  induction l generalizing s table with
  | nil => exact ⟨table, rfl, fun j => by simp⟩
  | cons i l ih =>
    obtain ⟨hi, hl⟩ := List.nodup_cons.1 hl
    have htable := h i List.mem_cons_self
    have hs : (s.answerUnlit checks i).table = s.table := by rw [State.answerUnlit_rest]
    have hstep : State.loseEntry checks i { s with table := table } =
        { s.answerUnlit checks i with table := table.set i ((s.entry i).unlit checks i) } := by
      rw [State.loseEntry_eq, State.answerUnlit_table checks i s table htable]
      show State.withEntry _ i (Entry.unlit checks i table[i]) = _
      rw [htable]
      rfl
    obtain ⟨v, hv, hentries⟩ := ih hl (s.answerUnlit checks i) (table.set i ((s.entry i).unlit checks i)) fun j hj => by
      have hij : i.val ≠ j.val := fun e => hi (Fin.ext e ▸ hj)
      rw [hs, ← h j (List.mem_cons_of_mem _ hj)]
      exact Vector.getElem_set_ne _ _ hij
    refine ⟨v, by rw [List.foldl_cons, List.foldl_cons, hstep, hv], fun j => ?_⟩
    have he : (s.answerUnlit checks i).entry j = s.entry j := by simp only [State.entry, hs]
    rw [hentries j, he]
    by_cases hij : i = j
    · subst hij
      simp [hi]
    · have hne : i.val ≠ j.val := fun e => hij (Fin.ext e)
      have hset : (table.set i ((s.entry i).unlit checks i))[j] = table[j] := Vector.getElem_set_ne _ _ hne
      simp only [List.mem_cons, Ne.symm hij, false_or, hset]

end Sys2Proof.Machine

/-! The Slot Switch's commands, WRITE ENTRY, CLEAR ENTRY and the passing of time, as chains of moves; and with them all
that a command can do. -/

namespace Sys2Proof.Machine

/-! ### The highway's loss and return (R120, R121) -/

/-- The part once the highway is lost, before the test of R81 (R120). -/
def State.unlit (s : State) : State :=
  { s with
    table := Vector.ofFn fun i => (s.entry i).unlit s.switch i
    switch := s.switch.parked
    port := s.port.latching { s.live with lost := true } }

theorem State.unlitAnswers_rest (s : State) :
    s.unlitAnswers = { s with relink := { s.relink with answers := s.unlitAnswers.relink.answers } } := by
  refine State.eachEntry_induct (fun t => t = { s with relink := { s.relink with answers := t.relink.answers } }) _ s rfl
    fun i t h => ?_
  rw [State.answerUnlit_rest, h]

/-- The pass of the loss leaves the answers of the CHECKING entries and every entry parked that the loss parks (R120). -/
theorem State.loseEntries_pass (s : State) : s.eachEntry (State.loseEntry s.switch) =
    { s.unlitAnswers with table := Vector.ofFn fun i => (s.entry i).unlit s.switch i } := by
  obtain ⟨v, hv, hentries⟩ :=
    State.loseEntries_eq s.switch (List.finRange 64) (List.nodup_finRange 64) s s.table fun _ _ => rfl
  have ht : v = Vector.ofFn fun i => (s.entry i).unlit s.switch i := Vector.ext fun i hi => by
    rw [Vector.getElem_ofFn]
    exact (hentries ⟨i, hi⟩).trans (if_pos (List.mem_finRange _))
  rw [← ht]
  exact hv

/-- A pass of the loss does not look at the Slot Switch. -/
theorem State.loseEntry_onSwitch (checks : SlotSwitch) (i : Index) (s : State) (f : SlotSwitch → SlotSwitch) :
    State.loseEntry checks i (s.onSwitch f) = (s.loseEntry checks i).onSwitch f := by
  unfold State.loseEntry State.checkCannotRun
  rw [State.onSwitch_entry]
  split
  · rfl
  · split
    · split <;> rfl
    · rfl

theorem State.loseEntries_onSwitch (checks : SlotSwitch) (s : State) (f : SlotSwitch → SlotSwitch) :
    (s.onSwitch f).eachEntry (State.loseEntry checks) = (s.eachEntry (State.loseEntry checks)).onSwitch f := by
  unfold State.eachEntry
  generalize List.finRange 64 = l
  induction l generalizing s with
  | nil => rfl
  | cons i l ih => rw [List.foldl_cons, List.foldl_cons, State.loseEntry_onSwitch, ih]

/-- The loss of the highway, in one form (R81, R120). -/
theorem State.loseHighway_eq (s : State) : s.loseHighway = s.unlitAnswers.unlit.endIfSettled := by
  unfold State.loseHighway
  dsimp only
  rw [State.loseEntries_onSwitch, State.loseEntries_pass, State.latchChanges_endIfSettled, State.latchChanges_eq]
  refine congrArg State.endIfSettled ?_
  rw [s.unlitAnswers_rest]
  generalize s.unlitAnswers.relink.answers = answers
  simp only [State.unlit, State.live, State.onSwitch, SlotSwitch.parked, beq_self_eq_true]
  rfl

theorem State.loseHighway_effects (s : State) (hr : s.running = true) : Effects s s.loseHighway := by
  rw [State.loseHighway_eq]
  have hr' : s.unlitAnswers.running = true := by rw [State.unlitAnswers_rest]; exact hr
  exact .settle (Changes.thenShift s.unlitAnswers_changes (.highwayLost _ hr'))

/-- The return of the highway, in one form (R121). -/
theorem State.gainHighway_eq (s : State) (frame : HighwayFrame) : s.gainHighway frame = { s with
    switch := SlotSwitch.fill true { s.switch with
      highway := .present, runCount := Config.syncRun, missing := 0, timing := some ⟨frame, 0⟩
      checkQueue := s.switch.checkQueue ++ s.parkedIndices }
    port := s.port.latching { s.live with lost := false } } := by
  unfold State.gainHighway
  rw [State.latchChanges_eq]
  unfold State.live
  simp only [State.onSwitch_switch, SlotSwitch.fill_highway]
  rfl

/-! ### Syncs (R117, R118) -/

theorem State.syncLost_effects (s : State) (cycles : Nat) (frame : HighwayFrame) (hr : s.running = true)
    (hl : s.switch.highway = .lost) : Effects s (s.syncLost cycles frame) := by
  unfold State.syncLost
  dsimp only
  generalize (if s.switch.runCount ≠ 0 ∧ onTime cycles = true then s.switch.runCount + 1 else 1) = run
  split
  · rw [State.gainHighway_eq]
    exact .move (.gained s frame hr hl)
  · next h => exact .move (.runCounted s _ (Nat.le_of_lt (Nat.lt_of_not_le h)))

theorem State.syncPresent_effects (s : State) (cycles : Nat) (frame : HighwayFrame)
    (hp : s.switch.highway = .present) : Effects s (s.syncPresent cycles frame) := by
  unfold State.syncPresent
  split
  · exact Effects.thenMove (s.passTo_effects _)
      (.frameStarted _ frame 0 ((s.passTo_abides _).highway.trans hp) (by decide))
  · exact .refl

theorem execSync_effects (cycles : Nat) (frame : HighwayFrame) (s : State) :
    ∃ t, exec (.sync cycles frame) s = .next t ∧ Effects s t := by
  refine ⟨_, rfl, ?_⟩
  split
  · next hr =>
    split
    · next hl => exact s.syncLost_effects cycles frame hr hl
    · next hp => exact s.syncPresent_effects cycles frame hp
  · exact .refl

theorem execSyncMissing_effects (frame : HighwayFrame) (s : State) :
    ∃ t, exec (.syncMissing frame) s = .next t ∧ Effects s t := by
  refine ⟨_, rfl, ?_⟩
  split
  · next h =>
    have abides := s.passTo_abides Config.frameSlots
    dsimp only
    split
    · next hm => exact Effects.thenMove (s.passTo_effects _) (.frameStarted _ frame _ (abides.highway.trans h.2) hm)
    · exact (s.passTo_effects _).trans (State.loseHighway_effects _ (abides.running.trans h.1))
  · exact .refl

theorem execRunTimeout_effects (s : State) : ∃ t, exec .runTimeout s = .next t ∧ Effects s t := by
  refine ⟨_, rfl, ?_⟩
  split
  · exact .move (.runCounted s 0 (Nat.zero_le _))
  · exact .refl

theorem execQuietCheckResult_effects (checker : Fin 4) (reading : Byte) (s : State) :
    ∃ t, exec (.quietCheckResult checker reading) s = .next t ∧ Effects s t := by
  refine ⟨_, rfl, ?_⟩
  split
  · dsimp only
    split
    · exact (s.passTo_effects _).trans (State.passSlot_effects _)
    · exact .refl
  · exact .refl

/-! ### WRITE ENTRY (R7 to R10) -/

/-- Bytes that are in range spell a circuit number that is not 0 (R7). -/
theorem badPosition_circuit (ps : List Byte) (h : badPosition ps = none) :
    (BitVec.ofNat 16 (paramWord ps 2) : Circuit) ≠ 0 := by
  have hne : paramWord ps 2 ≠ 0 := by
    intro h0
    unfold badPosition at h
    simp only [h0, if_true] at h
    split at h <;> cases h
  have hlt : paramWord ps 2 < 65536 := by
    have h1 := (paramByte ps 2).isLt
    have h2 := (paramByte ps (2 + 1)).isLt
    rw [paramWord, natOfBytes_two]
    omega
  intro h0
  have := congrArg BitVec.toNat h0
  rw [BitVec.toNat_ofNat, Nat.mod_eq_of_lt hlt] at this
  exact hne this

theorem State.clashing_none (s : State) (p : Entry → Bool) (h : s.clashing p = none) (j : Index)
    (hj : (s.entry j).state ≠ .empty) : p (s.entry j) = false := by
  have := (s.findEntry_none _).1 h j
  simpa [hj] using this

/-- Where no entry clashes, the index is EMPTY and the new entry is unlike every other (R5, R7). -/
theorem State.duplicate_none (s : State) (i : Index) (e : Entry) (h : s.duplicate i e = none) :
    (s.entry i).state = .empty ∧ ∀ j, (s.entry j).state ≠ .empty →
      (s.entry j).circuit ≠ e.circuit ∧ (s.entry j).txSlot ≠ e.txSlot ∧ (s.entry j).channel ≠ e.channel := by
  unfold State.duplicate at h
  split at h
  · cases h
  · next he =>
    split at h
    · cases h
    · cases h
    · cases h
    · next h1 h2 h3 =>
      refine ⟨Decidable.not_not.1 he, fun j hj => ?_⟩
      have c1 := s.clashing_none _ h1 j hj
      have c2 := s.clashing_none _ h2 j hj
      have c3 := s.clashing_none _ h3 j hj
      simpa using And.intro c1 (And.intro c2 c3)

/-- The entry that WRITE ENTRY's bytes describe may be written where nothing clashes (R5, R7, R8). -/
theorem State.fresh_writtenEntry (s : State) (i : Index) (ps : List Byte) (ha : s.active = true)
    (hr : s.running = true) (hb : badPosition ps = none) (hd : s.duplicate i (writtenEntry s.cardSlot ps) = none) :
    s.Fresh i (writtenEntry s.cardSlot ps) where
  active := ha
  running := hr
  empty := (s.duplicate_none i _ hd).1
  circuit := badPosition_circuit ps hb
  unique := (s.duplicate_none i _ hd).2
  key := rfl
  fingerprint := rfl
  rest := rfl

/-- The entry placed (R8, R9). -/
theorem State.placeEntry_turn (s : State) (i : Index) (e : Entry) (h : s.Fresh i e) :
    ∃ u, Placed s u ∧ s.placeEntry i e = u.leaveResult (writtenResult (if s.relink.campaign = .steady then e else
      { e with state := .pending, deadline := s.pendingDeadline e.role })) := by
  unfold State.placeEntry
  by_cases hc : s.relink.campaign = .steady
  · rw [if_pos hc, if_pos hc]
    have hstate : ((s.withEntry i e).entry i).state = .parked := by rw [State.withEntry_entry_self, h.rest]
    cases hw : s.switch.highway with
    | lost =>
      have hreq : (s.setEntry i e).requestCheck i = s.withEntry i e :=
        (State.requestCheck_of_lost (s.withEntry i e) i hw).trans (State.checkCannotRun_of_parked _ i hstate)
      exact ⟨_, .unlit s i e h hc hw, by rw [hreq]⟩
    | present =>
      have hreq : (s.setEntry i e).requestCheck i = (s.withEntry i e).checkAsked i :=
        State.requestCheck_of_present (s.withEntry i e) i hw
      exact ⟨_, .asked s i e h hc hw, by rw [hreq]⟩
  · rw [if_neg hc, if_neg hc]
    exact ⟨_, .relinking s i e h hc, rfl⟩

theorem execWriteEntry_turn (s : State) : ∃ t, exec .writeEntry s = .next t ∧ Turn .writeEntry s t := by
  refine ⟨_, rfl, ?_⟩
  split
  · next ht =>
    have hr : s.running = true := by
      simp only [State.takesCommands, Bool.and_eq_true] at ht
      exact ht.1
    unfold State.write
    split
    · exact .effects (.leaveResult _ _)
    · next ha =>
      split
      · exact .effects (.leaveResult _ _)
      · split
        · exact .effects (.leaveResult _ _)
        · exact .effects (.leaveResult _ _)
        · next i hb _ =>
          unfold State.writeAt
          split
          · exact .effects (.leaveResult _ _)
          · next hd =>
            obtain ⟨u, hu, heq⟩ := s.placeEntry_turn i _
              (s.fresh_writtenEntry i s.port.params (Bool.eq_true_of_not_eq_false ha) hr hb hd)
            rw [heq]
            exact .written rfl hu (.leaveResult _ _)
  · exact .effects .refl

/-! ### CLEAR ENTRY (R11 to R13) -/

/-- CLEAR ENTRY of a standing entry, in one form (R12). -/
theorem State.clearStanding_eq (s : State) (i : Index) : s.clearStanding i =
    (((s.dropped (s.entry i).circuit (s.entry i).farSlot .cleared).takenOut i).endIfSettled).leaveResult [rDone] := by
  unfold State.clearStanding
  dsimp only
  have hd : s.addDropFor i .cleared = s.dropped (s.entry i).circuit (s.entry i).farSlot .cleared := s.addDrop_eq _ _ _
  rw [hd]
  generalize s.dropped (s.entry i).circuit (s.entry i).farSlot .cleared = u
  rw [State.stopAnswerTimer_eq, State.stopDrive_eq, State.removeAnswer_eq, State.discardUnits_eq, State.emptyEntry_eq]
  rfl

theorem State.dropped_entry (s : State) (c : Circuit) (f : CardSlot) (r : DropReason) (i : Index) :
    (s.dropped c f r).entry i = s.entry i := by
  unfold State.dropped
  split
  · rfl
  · split <;> rfl

theorem State.clearStanding_turn (s : State) (i : Index) (hs : (s.entry i).state.standing = true) :
    Turn .clearEntry s (s.clearStanding i) := by
  rw [State.clearStanding_eq]
  have hne := ((EntryState.standing_iff _).1 hs).1
  refine .cleared rfl (.move (.dropped s _ _ .cleared ⟨i, hne, rfl⟩)) (.standing _ ?_) (.leaveResult _ _)
  rw [State.dropped_entry]
  exact hs

theorem State.clearAt_standing (s : State) (i : Index) (hs : (s.entry i).state.standing = true) :
    s.clearAt i = s.clearStanding i := by
  unfold State.clearAt
  split
  · next h => rw [h] at hs; cases hs
  · next h => rw [h] at hs; cases hs
  · rfl

/-- CLEAR ENTRY of a FAILED entry, in one form (R11). -/
theorem State.clearAt_failed (s : State) (i : Index) (hs : (s.entry i).state = .failed) : s.clearAt i =
    State.leaveResult { s with
      table := s.table.set i Entry.cleared
      line := s.lineWithout i
      units := s.units.filter fun u => u.entry != i
      port := s.port.posted (s.discardNotices i) } [rDone] := by
  unfold State.clearAt
  rw [hs]
  dsimp only
  rw [State.discardUnits_eq, State.emptyEntry_eq]
  rfl

theorem State.clearAt_turn (s : State) (i : Index) : Turn .clearEntry s (s.clearAt i) := by
  by_cases hs : (s.entry i).state.standing = true
  · rw [State.clearAt_standing s i hs]
    exact s.clearStanding_turn i hs
  · by_cases hf : (s.entry i).state = .failed
    · rw [State.clearAt_failed s i hf]
      exact .cleared rfl .refl (.failed s hf) (.leaveResult _ _)
    · have he : (s.entry i).state = .empty := by
        by_contra hne
        exact hs ((EntryState.standing_iff _).2 ⟨hne, hf⟩)
      unfold State.clearAt
      rw [he]
      exact .effects (.leaveResult _ _)

theorem execClearEntry_turn (s : State) : ∃ t, exec .clearEntry s = .next t ∧ Turn .clearEntry s t := by
  refine ⟨_, rfl, ?_⟩
  split
  · unfold State.clear
    split
    · exact .effects (.leaveResult _ _)
    · split
      · exact .effects (.leaveResult _ _)
      · split
        · exact .effects (.leaveResult _ _)
        · exact s.clearAt_turn _
  · exact .effects .refl

/-! ### Time passes (R20, R23, R36, R42) -/

theorem State.tick_effects (s : State) : Effects s s.tick := by
  unfold State.tick
  split
  · exact .move (.elapsed s 1)
  · next hr =>
    have hp : s.supply.power ≠ .run := by simpa [State.running] using hr
    exact .move (.waited s { s.supply with t := satAdd Config.outageMax s.supply.t 1 }
      ⟨hp, hp, rfl, rfl, rfl, rfl, .inr (satAdd_le _ _ _), .inl rfl, id⟩)

theorem State.passTime_effects (s : State) : Effects s s.passTime := by
  unfold State.passTime
  split
  · split
    · exact .move (.endedFrame s)
    · split
      · exact .move (.wentOn s)
      · split
        · exact s.passSlot_effects
        · exact s.tick_effects
  · exact s.tick_effects

/-! ### Every command -/

theorem Turn.ofEffects {c : Instr} {s : State} (h : ∃ t, exec c s = .next t ∧ Effects s t) :
    ∃ t, exec c s = .next t ∧ Turn c s t := by
  obtain ⟨t, ht, he⟩ := h
  exact ⟨t, ht, .effects he⟩

/-- A port command, whose meaning is a chain of effects. -/
theorem Turn.ofTaking {c : Instr} {s t : State} (hx : exec c s = .next (if s.takesCommands then t else s))
    (h : Effects s t) : ∃ u, exec c s = .next u ∧ Turn c s u := ⟨_, hx, .effects (.taking s h)⟩

/-- Every command has a next state, which is all that a command can do to it. -/
theorem exec_turn (c : Instr) (s : State) : ∃ t, exec c s = .next t ∧ Turn c s t := by
  cases c with
  | powerOn => exact execPowerOn_turn s
  | holdEntry phase vretLow => exact Turn.ofEffects (execHoldEntry_effects phase vretLow s)
  | mainOscillatorStop => exact Turn.ofEffects (execMainOscillatorStop_effects s)
  | supplyUpInHold aux => exact Turn.ofEffects (execSupplyUpInHold_effects aux s)
  | supplyDownInWake aux vretLow => exact Turn.ofEffects (execSupplyDownInWake_effects aux vretLow s)
  | retentionLoss => exact Turn.ofEffects (execRetentionLoss_effects s)
  | outageCounterSaturated => exact Turn.ofEffects (execOutageCounterSaturated_effects s)
  | wakeEnd aux straps => exact execWakeEnd_turn aux straps s
  | calibrationWindowEnd count => exact Turn.ofEffects (execCalibrationWindowEnd_effects count s)
  | offerPoint => exact Turn.ofEffects (execOfferPoint_effects s)
  | shelfLineStuck => exact Turn.ofEffects (execShelfLineStuck_effects s)
  | framingFault cause gap => exact Turn.ofEffects (execFramingFault_effects cause gap s)
  | crcFailure bytes crc gap => exact Turn.ofEffects (execCrcFailure_effects bytes crc gap s)
  | malformedFrame bytes gap => exact Turn.ofEffects (execMalformedFrame_effects bytes gap s)
  | frameObserved origin f => exact Turn.ofEffects (execFrameObserved_effects origin f s)
  | rollColdReceived source figure => exact Turn.ofEffects (execRollColdReceived_effects source figure s)
  | rollWarmReceived source figure => exact Turn.ofEffects (execRollWarmReceived_effects source figure s)
  | bidReceived source b => exact Turn.ofEffects (execBidReceived_effects source b s)
  | answerReceived source a => exact Turn.ofEffects (execAnswerReceived_effects source a s)
  | dropReceived source d => exact Turn.ofEffects (execDropReceived_effects source d s)
  | carryReceived source c => exact Turn.ofEffects (execCarryReceived_effects source c s)
  | bidOutcome o => exact Turn.ofEffects (execBidOutcome_effects o s)
  | answerOutcome o => exact Turn.ofEffects (execAnswerOutcome_effects o s)
  | dropOutcome o => exact Turn.ofEffects (execDropOutcome_effects o s)
  | rollOutcome o => exact Turn.ofEffects (execRollOutcome_effects o s)
  | carryOutcome o => exact Turn.ofEffects (execCarryOutcome_effects o s)
  | gatherClose => exact Turn.ofEffects (execGatherClose_effects s)
  | settleTimerExpiry => exact Turn.ofEffects (execSettleTimerExpiry_effects s)
  | answerTimerExpiry => exact Turn.ofEffects (execAnswerTimerExpiry_effects s)
  | deferredDeadline i => exact Turn.ofEffects (execDeferredDeadline_effects i s)
  | absentDeadline i => exact Turn.ofEffects (execAbsentDeadline_effects i s)
  | openBidExpiry => exact Turn.ofEffects (execOpenBidExpiry_effects s)
  | sync cycles frame => exact Turn.ofEffects (execSync_effects cycles frame s)
  | syncMissing frame => exact Turn.ofEffects (execSyncMissing_effects frame s)
  | runTimeout => exact Turn.ofEffects (execRunTimeout_effects s)
  | quietCheckResult checker reading => exact Turn.ofEffects (execQuietCheckResult_effects checker reading s)
  | setTiming => exact Turn.ofTaking rfl s.setTimingCmd_effects
  | setClassLimit => exact Turn.ofTaking rfl s.setClassLimitCmd_effects
  | setPacking => exact Turn.ofTaking rfl s.setPackingCmd_effects
  | start => exact Turn.ofTaking rfl s.startCmd_effects
  | writeEntry => exact execWriteEntry_turn s
  | clearEntry => exact execClearEntry_turn s
  | readEntry => exact Turn.ofTaking rfl s.readEntry_effects
  | submitUnit => exact Turn.ofTaking rfl s.submit_effects
  | clearCondition => exact Turn.ofTaking rfl s.clearGap_effects
  | resetLatch => exact Turn.ofTaking rfl s.resetLatchCmd_effects
  | setAttention => exact Turn.ofTaking rfl s.setAttentionCmd_effects
  | readRoster => exact Turn.ofTaking rfl s.readRosterCmd_effects
  | readCampaign => exact Turn.ofTaking rfl s.readCampaignCmd_effects
  | readFigures => exact Turn.ofTaking rfl s.readFiguresCmd_effects
  | unknownCommand code => exact Turn.ofEffects (execUnknownCommand_effects code s)
  | paramWrite value => exact Turn.ofEffects (execParamWrite_effects value s)
  | resultRead => exact Turn.ofEffects (execResultRead_effects s)
  | statusRead => exact Turn.ofEffects (execStatusRead_effects s)
  | noticeRead => exact Turn.ofEffects (execNoticeRead_effects s)
  | deliveryRead => exact Turn.ofEffects (execDeliveryRead_effects s)
  | ignoredWrite location value => exact Turn.ofEffects ⟨s, rfl, .refl⟩
  | cardReset => exact Turn.ofEffects (execCardReset_effects s)
  | cardResetRelease => exact Turn.ofEffects (execCardResetRelease_effects s)

end Sys2Proof.Machine

/-! What every step keeps: how a rule of every moment is carried through all that a command can do, and the ranges of
every count, figure, list and position (O53). -/

namespace Sys2Proof.Machine

/-! ### Rules of every moment -/

/-- A rule that each move keeps, and a weaker one that the shifts between two tests of R81 keep, from which the test
restores the rule. -/
structure Stable (P Q : State → Prop) : Prop where
  weaken : ∀ {s}, P s → Q s
  move : ∀ {s t}, Move s t → P s → P t
  moveWeak : ∀ {s t}, Move s t → Q s → Q t
  shift : ∀ {s t}, Shift s t → Q s → Q t
  settle : ∀ {s}, Q s → P s.endIfSettled

/-- A rule that moves, shifts and a campaign's end keep alike. -/
theorem Stable.same {P : State → Prop} (move : ∀ {s t}, Move s t → P s → P t) (shift : ∀ {s t}, Shift s t → P s → P t)
    (ended : ∀ {s}, s.settled → P s → P s.endedAs) : Stable P P where
  weaken := id
  move := move
  moveWeak := move
  shift := shift
  settle {s} h := by
    by_cases hs : s.settled
    · rw [s.endIfSettled_of_settled hs]; exact ended hs h
    · rw [s.endIfSettled_of_not hs]; exact h

theorem Stable.changes {P Q : State → Prop} (k : Stable P Q) {s t : State} (h : Changes s t) (hs : Q s) : Q t := by
  induction h with
  | refl => exact hs
  | tail _ h ih => exact h.elim (fun m => k.moveWeak m ih) fun f => k.shift f ih

theorem Stable.effects {P Q : State → Prop} (k : Stable P Q) {s t : State} (h : Effects s t) (hs : P s) : P t := by
  induction h with
  | refl => exact hs
  | tail _ h ih =>
    cases h with
    | move m => exact k.move m ih
    | settled c => exact k.settle (k.changes c (k.weaken ih))

/-- A rule of every moment: kept by all that a command can do, whatever waits in the queue. -/
structure Invariant (P : State → Prop) : Prop where
  effects : ∀ {s t}, Effects s t → P s → P t
  placed : ∀ {s t}, Placed s t → P s → P t
  emptied : ∀ {i s t}, Emptied i s t → P s → P t
  anew : ∀ (s : State) straps power mainOsc window retention, P (s.anew straps power mainOsc window retention)
  queue : ∀ {s : State} (l : List Instr), P s → P { s with pending := l }

theorem Invariant.turn {P : State → Prop} (k : Invariant P) {c : Instr} {s t : State} (h : Turn c s t) (hs : P s) : P t := by
  cases h with
  | effects h => exact k.effects h hs
  | written _ hp h => exact k.effects h (k.placed hp hs)
  | cleared _ hu he h => exact k.effects h (k.emptied he (k.effects hu hs))
  | anew _ h => rw [h]; exact k.anew s _ _ _ _ _

theorem Invariant.exec {P : State → Prop} (k : Invariant P) {c : Instr} {s t : State}
    (h : Sys2Proof.Machine.exec c s = .next t) (hs : P s) : P t := by
  obtain ⟨u, hu, ht⟩ := exec_turn c s
  rw [hu] at h
  cases h
  exact k.turn ht hs

/-- A rule of every moment is kept by every step. -/
theorem Invariant.step {P : State → Prop} (k : Invariant P) {s t : State} (hs : P s)
    (h : Sys2Proof.Machine.step s = .next t) : P t := by
  unfold Sys2Proof.Machine.step at h
  split at h
  · exact k.exec h (k.queue _ hs)
  · unfold idle at h
    split at h
    · exact k.exec h hs
    · cases h
      exact k.effects s.passTime_effects hs

/-! ### What the shared closed forms leave unchanged -/

theorem State.dropped_rest (s : State) (c : Circuit) (f : CardSlot) (r : DropReason) : s.dropped c f r = { s with
    relink := { s.relink with drops := (s.dropped c f r).relink.drops }
    port := (s.dropped c f r).port } := by
  unfold State.dropped
  split
  · rfl
  · split <;> rfl

theorem State.dropped_port (s : State) (c : Circuit) (f : CardSlot) (r : DropReason) :
    ∃ ns, (s.dropped c f r).port = s.port.posted ns := by
  unfold State.dropped
  split
  · exact ⟨[], (CardPort.posted_nil _).symm⟩
  · split
    · exact ⟨[], (CardPort.posted_nil _).symm⟩
    · exact ⟨_, rfl⟩

theorem State.dropped_drops (s : State) (c : Circuit) (f : CardSlot) (r : DropReason) :
    (s.dropped c f r).relink.drops = s.relink.drops ∨ (s.relink.drops.length < Config.listPlaces
      ∧ (s.dropped c f r).relink.drops = s.relink.drops ++ [⟨c, f, r, 0⟩]) := by
  unfold State.dropped
  split
  · exact .inl rfl
  · split
    · next h => exact .inr ⟨h, rfl⟩
    · exact .inl rfl

theorem State.checkAsked_rest (s : State) (i : Index) : s.checkAsked i = { s with switch := (s.checkAsked i).switch } := by
  unfold State.checkAsked
  split <;> rfl

@[simp] theorem SlotSwitch.fillOne_timing (b : Bool) (w : SlotSwitch) (k : Fin 4) : (w.fillOne b k).timing = w.timing := by
  unfold SlotSwitch.fillOne
  split <;> rfl

@[simp] theorem SlotSwitch.fill_timing (b : Bool) (w : SlotSwitch) : (w.fill b).timing = w.timing := by
  simp [SlotSwitch.fill_eq]

/-! ### Ranges, block by block -/

structure SupplyMonitor.InRange (u : SupplyMonitor) : Prop where
  calibration : Config.calibrationMin ≤ u.a ∧ u.a ≤ Config.calibrationMax
  outage : u.t ≤ Config.outageMax
  episode : u.e ≤ Config.figureCap
  accumulated : u.m ≤ Config.figureCap
  warmup : u.warmup ≤ Config.warmupCycles

structure RelinkEngine.InRange (r : RelinkEngine) : Prop where
  counts : r.joined ≤ 255 ∧ r.failed ≤ 255 ∧ r.late ≤ 255
  answers : r.answers.length ≤ Config.listPlaces
  drops : r.drops.length ≤ Config.listPlaces
  dropSends : ∀ d ∈ r.drops, d.sends < Config.dropSends

structure ShelfLine.InRange (l : ShelfLine) : Prop where
  gap : l.gap ≤ Config.startGap
  dominant : l.dominant ≤ Config.stuckBits + 1

structure SlotSwitch.InRange (w : SlotSwitch) : Prop where
  runCount : w.runCount ≤ Config.syncRun
  missing : w.missing < Config.missingLimit
  slots : ∀ x, w.timing = some x → x.slot ≤ Config.frameSlots
  samples : ∀ (k : Fin 4) c, w.checkers[k] = some c → c.samples < Config.quietReadings

def Entry.InRange (e : Entry) : Prop := e.noReceipt < Config.noReceiptLimit ∧ e.busy < Config.busyLimit

/-- The ranges of `InRange`, by the block that they belong to. -/
structure BlocksInRange (s : State) : Prop where
  supply : s.supply.InRange
  relink : s.relink.InRange
  line : s.line.InRange
  switch : s.switch.InRange
  entries : ∀ i, (s.entry i).InRange
  units : s.units.length ≤ Config.unitPlaces
  delivery : s.delivery.InRange
  port : s.port.InRange
  settings : s.settings.InRange

theorem inRange_iff (s : State) : InRange s ↔ BlocksInRange s where
  mp h := {
    supply := ⟨h.calibration, h.outage, h.episode, h.accumulated, h.warmup⟩
    relink := ⟨h.counts, h.answers, h.drops, h.dropSends⟩
    line := ⟨h.gap, h.dominant⟩
    switch := ⟨h.runCount, h.missing, h.slots, h.samples⟩
    entries := h.strikes
    units := h.units
    delivery := ⟨h.delivery, h.deliveryPosition⟩
    port := ⟨h.notices, h.noticePosition, h.params, h.resultPosition⟩
    settings := ⟨h.gather, h.wait, h.absent, h.settle, h.pack, h.limits⟩ }
  mpr h := {
    calibration := h.supply.calibration
    outage := h.supply.outage
    episode := h.supply.episode
    accumulated := h.supply.accumulated
    warmup := h.supply.warmup
    counts := h.relink.counts
    answers := h.relink.answers
    drops := h.relink.drops
    dropSends := h.relink.dropSends
    gap := h.line.gap
    dominant := h.line.dominant
    runCount := h.switch.runCount
    missing := h.switch.missing
    slots := h.switch.slots
    samples := h.switch.samples
    strikes := h.entries
    units := h.units
    delivery := h.delivery.places
    deliveryPosition := h.delivery.position
    notices := h.port.notices
    noticePosition := h.port.noticePosition
    params := h.port.params
    resultPosition := h.port.resultPosition
    gather := h.settings.gather
    wait := h.settings.wait
    absent := h.settings.absent
    settle := h.settings.settle
    pack := h.settings.pack
    limits := h.settings.limits }

/-! ### The port -/

theorem CardPort.InRange.latching {p : CardPort} (h : p.InRange) (v : LatchItems) : (p.latching v).InRange := by
  unfold CardPort.latching
  split
  · exact h
  · exact ⟨h.notices, h.noticePosition, h.params, h.resultPosition⟩

theorem CardPort.InRange.posted {p : CardPort} (h : p.InRange) (ns : List Notice) : (p.posted ns).InRange :=
  (CardPort.Keeps.posted p ns).range h

/-! ### The line -/

theorem ShelfLine.readBit_inRange (l : ShelfLine) (bit : Bool) : (l.readBit bit).InRange := by
  have hc : (l.countBit bit).InRange := by
    rw [ShelfLine.countBit_eq]
    constructor
    · show (if bit = true then min (l.gap + 1) 11 else 0) ≤ 11
      split <;> omega
    · show (if bit = true then 0 else min (l.dominant + 1) 2001) ≤ 2001
      split <;> omega
  unfold ShelfLine.readBit
  dsimp only
  split <;> exact ⟨hc.gap, hc.dominant⟩

theorem ShelfLine.goOn_counts (l : ShelfLine) : l.goOn.gap = l.gap ∧ l.goOn.dominant = l.dominant := by
  unfold ShelfLine.goOn
  split
  · exact ⟨rfl, rfl⟩
  · split <;> exact ⟨rfl, rfl⟩

theorem receiptRun_le (r : Option Receipt) : receiptRun r ≤ 2 := by
  unfold receiptRun
  split <;> omega

theorem State.sendEnded_inRange {s : State} (h : s.line.InRange) (o : SendOutcome) : (s.sendEnded o).line.InRange := by
  obtain ⟨hg, hd⟩ := h
  cases o with
  | outputFailed gap =>
    exact ⟨Nat.le_trans (Nat.min_le_right gap 10) (by decide), Nat.zero_le _⟩
  | lost => exact ⟨hg, hd⟩
  | aborted => exact ⟨hg, hd⟩
  | taken => exact ⟨Nat.zero_le _, Nat.zero_le _⟩
  | noReceipt => exact ⟨Nat.zero_le _, Nat.zero_le _⟩
  | busy => exact ⟨Nat.zero_le _, show 2 ≤ Config.stuckBits + 1 by decide⟩

/-! ### The Slot Switch -/

theorem SlotSwitch.InRange.fillOne {w : SlotSwitch} (h : w.InRange) (b : Bool) (k : Fin 4) : (w.fillOne b k).InRange := by
  unfold SlotSwitch.fillOne
  split
  · refine ⟨h.runCount, h.missing, h.slots, fun j c hc => ?_⟩
    by_cases hkj : k.val = j.val
    · have : c.samples = 0 := by
        simp only [Fin.getElem_fin, hkj, Vector.getElem_set_self, Option.some.injEq] at hc
        rw [← hc]
      rw [this]
      decide
    · simp only [Fin.getElem_fin, Vector.getElem_set_ne _ _ hkj] at hc
      exact h.samples j c hc
  · exact h
  · exact h

theorem SlotSwitch.InRange.fill {w : SlotSwitch} (h : w.InRange) (b : Bool) : (w.fill b).InRange :=
  (((h.fillOne b 0).fillOne b 1).fillOne b 2).fillOne b 3

/-- A Slot Switch of which the checkers hold no other counts. -/
theorem SlotSwitch.InRange.of_samples {w v : SlotSwitch} (h : w.InRange) (hr : v.runCount ≤ Config.syncRun)
    (hm : v.missing < Config.missingLimit) (ht : v.timing = w.timing)
    (hc : ∀ (k : Fin 4) c, v.checkers[k] = some c → ∃ (j : Fin 4) (d : Checker), w.checkers[j] = some d ∧ c.samples = d.samples) :
    v.InRange := by
  refine ⟨hr, hm, fun x hx => h.slots x (by rw [← ht]; exact hx), fun k c hk => ?_⟩
  obtain ⟨j, d, hd, he⟩ := hc k c hk
  rw [he]
  exact h.samples j d hd

theorem dropChecker_some {i : Index} {o : Option Checker} {c : Checker} (h : dropChecker i o = some c) :
    o = some c ∧ c.index ≠ i := by
  unfold dropChecker at h
  split at h
  · split at h
    · cases h
    · next hne => exact ⟨h, by cases h; exact hne⟩
  · cases h

theorem SlotSwitch.InRange.withdraw {w : SlotSwitch} (h : w.InRange) (i : Index) : (w.withdraw i).InRange := by
  have hv : SlotSwitch.InRange { w with
      checkQueue := w.checkQueue.filter fun j => j != i, checkers := w.checkers.map (dropChecker i) } :=
    h.of_samples h.runCount h.missing rfl fun k c hk => ⟨k, c, by
      simp only [Fin.getElem_fin, Vector.getElem_map] at hk
      exact (dropChecker_some hk).1, rfl⟩
  exact hv.fill false

theorem SlotSwitch.InRange.inbound {w : SlotSwitch} (h : w.InRange) (x : Vector Byte 64) :
    SlotSwitch.InRange { w with inbound := x } := ⟨h.runCount, h.missing, h.slots, h.samples⟩

theorem SlotSwitch.InRange.parked (w : SlotSwitch) (x : Vector Byte 64) :
    SlotSwitch.InRange { w.parked with outbound := x } :=
  ⟨Nat.zero_le _, show 0 < Config.missingLimit by decide, nofun, fun k c hc => by
    simp [SlotSwitch.parked] at hc⟩

theorem SlotSwitch.InRange.freed {w : SlotSwitch} (h : w.InRange) (k : Fin 4) :
    SlotSwitch.InRange { w with checkers := w.checkers.set k none } := by
  refine h.of_samples h.runCount h.missing rfl fun j c hj => ⟨j, c, ?_, rfl⟩
  by_cases hkj : k.val = j.val
  · simp [hkj] at hj
  · simpa only [Fin.getElem_fin, Vector.getElem_set_ne _ _ hkj] using hj

theorem State.switchWithout_inRange {s : State} (h : s.switch.InRange) (i : Index) : (s.switchWithout i).InRange :=
  (h.inbound _).withdraw i

theorem State.checkAsked_inRange {s : State} (h : s.switch.InRange) (i : Index) : (s.checkAsked i).switch.InRange := by
  unfold State.checkAsked
  split
  · exact h
  · have hv : SlotSwitch.InRange { s.switch with checkQueue := s.switch.checkQueue ++ [i] } :=
      ⟨h.runCount, h.missing, h.slots, h.samples⟩
    exact hv.fill false

/-! ### Entries -/

theorem BlocksInRange.withEntry {s : State} (h : BlocksInRange s) (i : Index) {e : Entry} (he : e.InRange) :
    BlocksInRange (s.withEntry i e) := by
  refine { h with entries := fun j => ?_ }
  rw [State.withEntry_entry]
  split
  · exact he
  · exact h.entries j

theorem State.Recounts.inRange {s : State} {e f : Entry} (h : s.Recounts e f) (he : e.InRange) : f.InRange := by
  constructor
  · rcases h.noReceipt with h | h
    · rw [h]; exact he.1
    · exact h
  · rcases h.busy with h | h
    · rw [h]; exact he.2
    · exact h

theorem episodeFigure_le (t a : Nat) : episodeFigure t a ≤ Config.figureCap := by
  unfold episodeFigure
  split
  · exact Nat.le_refl _
  · exact Nat.min_le_right _ _

theorem Entry.atWake_inRange {e : Entry} (h : e.InRange) : e.atWake.InRange := by
  unfold Entry.atWake
  split
  · exact ⟨show 0 < Config.noReceiptLimit by decide, show 0 < Config.busyLimit by decide⟩
  · exact h

theorem markUnits_length (i : Index) (n : Nat) (us : List QueuedUnit) : (markUnits i n us).length = us.length := by
  induction us generalizing n with
  | nil => cases n <;> rfl
  | cons u us ih =>
    cases n with
    | zero => rfl
    | succ n =>
      unfold markUnits
      split <;> simp [ih]

end Sys2Proof.Machine

/-! O53: every move, and with it every step, keeps the ranges. -/

namespace Sys2Proof.Machine

theorem CardPort.latching_settings_inRange {p : CardPort} (h : p.settings.InRange) (v : LatchItems) :
    (p.latching v).settings.InRange := by
  rw [CardPort.latching_settings]
  exact h

/-- A change of timers, records and the campaign's state alone. -/
theorem RelinkEngine.InRange.timed {r : RelinkEngine} (h : r.InRange) (campaign : Campaign) (gather : Option Nat)
    (settle : SettleTimer) (answer : Option Nat) (roster : Vector RosterRecord 32) (openBid : Option OpenBid)
    (front : Option Key) (roll : Option RollKind) (arrival : Arrival) :
    RelinkEngine.InRange { r with
      campaign := campaign, gatherTimer := gather, settleTimer := settle, answerTimer := answer, roster := roster
      openBid := openBid, front := front, pendingRoll := roll, arrival := arrival } :=
  ⟨h.counts, h.answers, h.drops, h.dropSends⟩

theorem CardPort.Keeps.settings_inRange {p q : CardPort} (h : p.Keeps q) (hp : p.settings.InRange) :
    q.settings.InRange := by
  rw [h.settings]
  exact hp

theorem BlocksInRange.dropped {s : State} (h : BlocksInRange s) (c : Circuit) (f : CardSlot) (r : DropReason) :
    BlocksInRange (s.dropped c f r) := by
  rw [State.dropped_rest]
  obtain ⟨ns, hns⟩ := s.dropped_port c f r
  rw [hns]
  refine { h with relink := ?_, port := h.port.posted ns, settings := h.settings }
  rcases s.dropped_drops c f r with hd | ⟨hlt, hd⟩
  · rw [hd]; exact ⟨h.relink.counts, h.relink.answers, h.relink.drops, h.relink.dropSends⟩
  · rw [hd]
    refine ⟨h.relink.counts, h.relink.answers, by simpa using hlt, fun d hm => ?_⟩
    rcases List.mem_append.1 hm with hm | hm
    · exact h.relink.dropSends d hm
    · rw [List.mem_singleton.1 hm]; exact show 0 < Config.dropSends by decide

theorem BlocksInRange.pendingAs {s : State} (h : BlocksInRange s) (i : Index) (misses : Nat) :
    BlocksInRange (s.pendingAs i misses) := by
  have hr := h.relink
  have hrelink : RelinkEngine.InRange { (if s.relink.campaign = .steady then s.begunForEntry else s.relink) with
      answerTimer := s.timerWithout i } := by
    split
    · exact ⟨⟨Nat.zero_le _, Nat.zero_le _, Nat.zero_le _⟩, hr.answers, hr.drops, hr.dropSends⟩
    · exact ⟨hr.counts, hr.answers, hr.drops, hr.dropSends⟩
  have hp : (if s.relink.campaign = .steady then s.port.posted [⟨.campaignBegun, BitVec.ofNat 8 i.val, 4, 0⟩]
      else s.port).InRange ∧ (if s.relink.campaign = .steady then
        s.port.posted [⟨.campaignBegun, BitVec.ofNat 8 i.val, 4, 0⟩] else s.port).settings.InRange := by
    split
    · exact ⟨h.port.posted _, h.settings⟩
    · exact ⟨h.port, h.settings⟩
  exact { h.withEntry i ⟨show 0 < Config.noReceiptLimit by decide, show 0 < Config.busyLimit by decide⟩ with
    relink := hrelink
    switch := State.switchWithout_inRange h.switch i
    port := hp.1
    settings := hp.2 }

theorem BlocksInRange.rolled {s : State} (h : BlocksInRange s) : BlocksInRange s.rolled := by
  have hr := h.relink
  unfold State.rolled
  split
  · exact { h with
      relink := ⟨⟨Nat.zero_le _, Nat.zero_le _, Nat.zero_le _⟩, hr.answers, hr.drops, hr.dropSends⟩
      port := h.port.posted _
      settings := h.settings }
  · exact { h with relink := hr.timed _ _ _ _ _ _ _ _ _ }
  · exact h

theorem BlocksInRange.yielded {s : State} (h : BlocksInRange s) : BlocksInRange s.yielded := by
  unfold State.yielded
  split
  · exact h
  · split
    · exact h
    · refine { h with line := ⟨h.line.gap, h.line.dominant⟩, units := ?_ }
      have hu := h.units
      dsimp only
      split
      · simpa using hu
      · exact hu

/-- A line whose last bit was a start bit (R62). -/
theorem ShelfLine.InRange.started {l : ShelfLine} (hg : l.gap = 0) (hd : l.dominant = 1) : l.InRange :=
  ⟨by rw [hg]; exact Nat.zero_le _, by rw [hd]; decide⟩

theorem BlocksInRange.checkAsked {s : State} (h : BlocksInRange s) (i : Index) : BlocksInRange (s.checkAsked i) := by
  rw [State.checkAsked_rest]
  exact { h with switch := State.checkAsked_inRange h.switch i }

theorem BlocksInRange.move {s t : State} (m : Move s t) (h : BlocksInRange s) : BlocksInRange t := by
  have hu := h.supply
  have hr := h.relink
  have hl := h.line
  have hw := h.switch
  have latched := CardPort.latching_settings_inRange h.settings
  have noCounts : (0 ≤ 255 ∧ 0 ≤ 255 ∧ 0 ≤ 255) := by decide
  cases m with
  | elapsed n => exact { h with supply := ⟨hu.calibration, hu.outage, hu.episode, hu.accumulated, hu.warmup⟩ }
  | waited u hu' =>
    refine { h with supply := ⟨by rw [hu'.a]; exact hu.calibration, ?_, by rw [hu'.e]; exact hu.episode,
      by rw [hu'.m]; exact hu.accumulated, ?_⟩ }
    · rcases hu'.t with ht | ht
      · rw [ht]; exact hu.outage
      · exact ht
    · rcases hu'.warmup with hw | hw
      · rw [hw]; exact hu.warmup
      · rw [hw]; exact Nat.zero_le _
  | released hr => exact { h with line := ⟨hl.gap, hl.dominant⟩ }
  | calibrated a fault window ha =>
    refine { h with
      supply := ⟨?_, hu.outage, hu.episode, hu.accumulated, hu.warmup⟩
      port := h.port.latching _
      settings := latched _ }
    rcases ha with rfl | ha
    · exact hu.calibration
    · exact ha
  | held drive retention hr' hd =>
    exact { h with
      supply := ⟨hu.calibration, Nat.zero_le _, hu.episode, hu.accumulated, hu.warmup⟩
      line := ⟨hl.gap, hl.dominant⟩
      switch := .parked s.switch s.switch.outbound
      units := (Nat.le_of_eq (List.length_map _)).trans h.units
      relink := hr.timed _ _ _ _ _ _ _ _ _
      port := h.port.latching _
      settings := latched _ }
  | resetPort low edge =>
    exact { h with
      delivery := ⟨h.delivery.places, Nat.zero_lt_one⟩
      port := ⟨Nat.zero_le _, Nat.zero_lt_one, Nat.zero_le _, Nat.le_refl _⟩
      settings := h.settings }
  | wokenActive t outbound hp hret ha ht =>
    refine { h with
      supply := ⟨hu.calibration, ht, episodeFigure_le _ _, satAdd_le _ _ _, Nat.le_refl _⟩
      relink := ⟨noCounts, Nat.zero_le _, hr.drops, hr.dropSends⟩
      line := ⟨Nat.zero_le _, Nat.zero_le _⟩
      switch := .parked s.switch outbound
      entries := fun i => ?_
      port := (h.port.posted _).latching _
      settings := CardPort.latching_settings_inRange (p := s.port.posted _) h.settings _ }
    have := Entry.atWake_inRange (h.entries i)
    simpa [State.entry] using this
  | wokenConfig t outbound hp hret ha ht =>
    exact { h with
      supply := ⟨hu.calibration, ht, episodeFigure_le _ _, hu.accumulated, Nat.le_refl _⟩
      relink := hr.timed _ _ _ _ _ _ _ _ _
      line := ⟨Nat.zero_le _, Nat.zero_le _⟩
      switch := .parked s.switch outbound
      port := h.port.latching _
      settings := latched _ }
  | offered =>
    exact { h with
      line := ⟨Nat.le_refl _, Nat.zero_le _⟩
      relink := hr.timed _ _ _ _ _ _ _ _ _
      port := h.port.latching _
      settings := latched _ }
  | itemSent body dest ho hlist => exact { h with line := .started rfl rfl }
  | bidSent i figure ho hs hrole hn => exact { h with line := .started rfl rfl }
  | carrySent i ho hs hunits =>
    exact { h with line := .started rfl rfl, units := (Nat.le_of_eq (markUnits_length _ _ _)).trans h.units }
  | yielded => exact h.yielded
  | stuck =>
    exact { h with
      line := ⟨Nat.zero_le _, Nat.le_refl _⟩, port := h.port.latching _, settings := latched _ }
  | hunted gap dominant hg hd =>
    exact { h with
      line := ⟨Nat.le_of_lt hg, Nat.le_succ_of_le hd⟩, port := h.port.latching _, settings := latched _ }
  | endedFrame =>
    exact { h with line := ⟨Nat.zero_le _, (receiptRun_le _).trans (show 2 ≤ Config.stuckBits + 1 by decide)⟩ }
  | readLow =>
    exact { h with
      line := ShelfLine.readBit_inRange s.line false, port := h.port.latching _, settings := latched _ }
  | wentOn =>
    obtain ⟨hg, hd⟩ := s.line.goOn_counts
    exact { h with line := ⟨(Nat.le_of_eq hg).trans hl.gap, (Nat.le_of_eq hd).trans hl.dominant⟩ }
  | heard f => exact { h with line := .started rfl rfl, port := h.port.latching _, settings := latched _ }
  | clashed f hrun hb => exact { h with line := .started rfl rfl, port := h.port.latching _, settings := latched _ }
  | receipted f r ha hs => exact { h with line := .started rfl rfl, port := h.port.latching _, settings := latched _ }
  | handedOver => exact { h with line := ⟨hl.gap, hl.dominant⟩ }
  | sendEnded o f hb hf => exact { h with line := State.sendEnded_inRange hl o }
  | carryEnded o f hb =>
    refine { h with line := State.sendEnded_inRange hl o, units := ?_ }
    dsimp only
    split
    · exact (List.length_filter_le _ _).trans h.units
    · exact (Nat.le_of_eq (List.length_map _)).trans h.units
  | recorded roster openBid arrival => exact { h with relink := hr.timed _ _ _ _ _ _ _ _ _ }
  | settleRestarted tick hc => exact { h with relink := hr.timed _ _ _ _ _ _ _ _ _ }
  | frontMoved front hc => exact { h with relink := hr.timed _ _ _ _ _ _ _ _ _ }
  | rolled ha => exact h.rolled
  | queued a huse ha => 
    exact { h with relink := ⟨hr.counts, queueAnswerItem_length _ a hr.answers, hr.drops, hr.dropSends⟩ }
  | answersLeft l hsub hlen => 
    exact { h with relink := ⟨hr.counts, hlen.trans hr.answers, hr.drops, hr.dropSends⟩ }
  | dropped c f r hd => exact h.dropped c f r
  | dropsLeft l hlen hd =>
    refine { h with relink := ⟨hr.counts, hr.answers, hlen.trans hr.drops, fun d hm => ?_⟩ }
    obtain ⟨x, hx, -, hs⟩ := hd d hm
    rcases hs with hs | hs
    · rw [hs]; exact hr.dropSends x hx
    · exact hs
  | rollTaken tick => exact { h with relink := hr.timed _ _ _ _ _ _ _ _ _ }
  | recounted i e he => exact h.withEntry i (he.inRange (h.entries i))
  | returned i misses hs hm => exact h.pendingAs i misses
  | deferred i misses tick hs hrole hm => 
    exact { h.withEntry i (e := { s.entry i with state := .deferred, misses := misses, deadline := some tick }) (h.entries i) with
      relink := hr.timed _ _ _ _ _ _ _ _ _ }
  | bidTaken o f b i tick hb hf hs hrole =>
    exact { h.withEntry i (e := { s.entry i with state := .bidding, attempt := b.attempt }) (h.entries i) with
      line := State.sendEnded_inRange hl o
      relink := hr.timed _ _ _ _ _ _ _ _ _ }
  | checking i hs hrole ha hpres => 
    exact BlocksInRange.checkAsked (h.withEntry i (e := { s.entry i with state := .checking, deadline := none }) (h.entries i)) i
  | submitted i content hs hlt hc =>
    refine { h.withEntry i (e := { s.entry i with txSeq := (s.entry i).txSeq + 1 }) (h.entries i) with units := ?_ }
    simpa using hlt
  | gathered absent settle hc =>
    refine { h with entries := fun i => ?_, relink := hr.timed _ _ _ _ _ _ _ _ _ }
    have hi := h.entries i
    have : Entry.InRange ((s.entry i).withAbsent absent) := by
      unfold Entry.withAbsent
      split
      · exact hi
      · exact hi
    simpa [State.entry] using this
  | runCounted n hn => exact { h with switch := ⟨hn, hw.missing, hw.slots, hw.samples⟩ }
  | gained frame hrun hlost =>
    have hv : SlotSwitch.InRange { s.switch with
        highway := .present, runCount := Config.syncRun, missing := 0, timing := some ⟨frame, 0⟩
        checkQueue := s.switch.checkQueue ++ s.parkedIndices } :=
      ⟨Nat.le_refl _, show 0 < Config.missingLimit by decide, fun x hx => by cases hx; exact Nat.zero_le _, hw.samples⟩
    exact { h with switch := hv.fill true, port := h.port.latching _, settings := latched _ }
  | frameStarted frame missing hp hm =>
    refine { h with switch := ⟨hw.runCount, hm, fun x hx => by cases hx; exact Nat.zero_le _, fun k c hc => ?_⟩ }
    simp only [SlotSwitch.startFrame, Fin.getElem_fin, Vector.getElem_map, Option.map_eq_some_iff] at hc
    obtain ⟨d, hd, rfl⟩ := hc
    exact hw.samples k d hd
  | slotRun x outbound inbound hx hlt hin =>
    exact { h with switch := ⟨hw.runCount, hw.missing, fun y hy => by cases hy; exact hlt, hw.samples⟩ }
  | readingCounted k c hc hlt =>
    refine { h with switch := ⟨hw.runCount, hw.missing, hw.slots, fun j d hd => ?_⟩ }
    by_cases hkj : k.val = j.val
    · simp only [Fin.getElem_fin, hkj, Vector.getElem_set_self, Option.some.injEq] at hd
      rw [← hd]
      exact hlt
    · simp only [Fin.getElem_fin, Vector.getElem_set_ne _ _ hkj] at hd
      exact hw.samples j d hd
  | ported p hp => exact { h with port := hp.range h.port, settings := hp.settings_inRange h.settings }
  | configured g ha hg hk =>
    exact { h with
      port := ⟨h.port.notices, h.port.noticePosition, h.port.params, h.port.resultPosition⟩
      settings := hg h.settings }
  | started tick ha =>
    have hp : CardPort.InRange { s.port with mode := .active } :=
      ⟨h.port.notices, h.port.noticePosition, h.port.params, h.port.resultPosition⟩
    exact { h with
      relink := ⟨noCounts, hr.answers, hr.drops, hr.dropSends⟩, port := hp.posted _, settings := h.settings }
  | rearmed =>
    exact { h with
      port := ⟨h.port.notices, h.port.noticePosition, h.port.params, h.port.resultPosition⟩, settings := h.settings }
  | delivered d hd he => exact { h with delivery := hd h.delivery }

theorem BlocksInRange.failedAs {s : State} (h : BlocksInRange s) (i : Index) (reason : FailReason)
    (far : Option FarReason) : BlocksInRange (s.failedAs i reason far) := by
  have hr := h.relink
  obtain ⟨hj, hf, hl⟩ := hr.counts
  have hfailed : (if s.relink.campaign = .steady then s.relink.failed else min (s.relink.failed + 1) 255) ≤ 255 := by
    split <;> omega
  exact { h.withEntry i (e := { s.entry i with state := .failed, failure := some ⟨reason, far⟩, deadline := none })
      (h.entries i) with
    relink := ⟨⟨hj, hfailed, hl⟩, hr.answers, hr.drops, hr.dropSends⟩
    switch := State.switchWithout_inRange h.switch i
    units := (List.length_filter_le _ _).trans h.units
    port := h.port.posted _
    settings := h.settings }

theorem BlocksInRange.joinedAs {s : State} (h : BlocksInRange s) (i : Index) (st : EntryState) (late : Bool) :
    BlocksInRange (s.joinedAs i st late) := by
  have hr := h.relink
  obtain ⟨hj, hf, hl⟩ := hr.counts
  have hjoined : (if s.relink.campaign = .steady then s.relink.joined else min (s.relink.joined + 1) 255) ≤ 255 := by
    split <;> omega
  have hlate : (if s.relink.campaign ≠ .steady ∧ late = true then min (s.relink.late + 1) 255 else s.relink.late)
      ≤ 255 := by split <;> omega
  exact { h.withEntry i (e := { s.entry i with state := st, late := late, deadline := none }) (h.entries i) with
    relink := ⟨⟨hjoined, hf, hlate⟩, hr.answers, hr.drops, hr.dropSends⟩
    port := h.port.posted _
    settings := h.settings }

theorem Entry.unlit_inRange {e : Entry} (h : e.InRange) (w : SlotSwitch) (i : Index) : (e.unlit w i).InRange := by
  unfold Entry.unlit
  split
  · exact h
  · exact h

theorem BlocksInRange.parked {s : State} (h : BlocksInRange s) (table : Vector Entry 64)
    (ht : ∀ i : Index, table[i].InRange) (v : LatchItems) : BlocksInRange { s with
      table := table, switch := s.switch.parked, port := s.port.latching v } :=
  { h with
    entries := ht
    switch := .parked s.switch s.switch.outbound
    port := h.port.latching _
    settings := CardPort.latching_settings_inRange (p := s.port) h.settings _ }

theorem BlocksInRange.shift {s t : State} (f : Shift s t) (h : BlocksInRange s) : BlocksInRange t := by
  have hr := h.relink
  cases f with
  | failed i reason far hs => exact h.failedAs i reason far
  | connected k c hc hs =>
    exact { h.withEntry c.index (e := { s.entry c.index with state := .live }) (h.entries c.index) with
      switch := (h.switch.freed k).fill false, port := h.port.posted _, settings := h.settings }
  | freed k c hc hs => exact { h with switch := (h.switch.freed k).fill false }
  | joined i st late hs hrole hst hp => exact (h.joinedAs i st late).checkAsked i
  | joinedLost i late hs hrole hl => exact h.joinedAs i .parked late
  | parked i hs hl => exact h.withEntry i (h.entries i)
  | highwayLost hrun =>
    refine h.parked _ (fun i => ?_) _
    simpa using Entry.unlit_inRange (h.entries i) s.switch i
  | timedOut tick ht => exact { h with relink := hr.timed _ _ _ _ _ _ _ _ _ }

theorem BlocksInRange.ended {s : State} (h : BlocksInRange s) : BlocksInRange s.endedAs := by
  unfold State.endedAs
  exact { h with
    supply := ⟨h.supply.calibration, h.supply.outage, h.supply.episode, Nat.zero_le _, h.supply.warmup⟩
    relink := h.relink.timed _ _ _ _ _ _ _ _ _
    port := h.port.posted _
    settings := h.settings }

theorem BlocksInRange.stable : Stable BlocksInRange BlocksInRange :=
  .same BlocksInRange.move BlocksInRange.shift fun _ h => h.ended

theorem State.Fresh.inRange {s : State} {i : Index} {e : Entry} (h : s.Fresh i e) : e.InRange := by
  rw [h.rest]
  exact ⟨show 0 < Config.noReceiptLimit by decide, show 0 < Config.busyLimit by decide⟩

theorem Entry.cleared_inRange : Entry.cleared.InRange :=
  ⟨show 0 < Config.noReceiptLimit by decide, show 0 < Config.busyLimit by decide⟩

theorem Settings.defaults_inRange : Settings.defaults.InRange where
  gather := by decide
  wait := by decide
  absent := by decide
  settle := by decide
  pack := by decide
  limits c := by
    have h : Settings.defaults.limit c = 60000 := by simp [Settings.defaults, Settings.limit]
    rw [h]
    decide

theorem BlocksInRange.invariant : Invariant BlocksInRange where
  effects := BlocksInRange.stable.effects
  placed hp h := by
    cases hp with
    | unlit i e hf hc hl => exact h.withEntry i hf.inRange
    | asked i e hf hc hp => exact (h.withEntry i hf.inRange).checkAsked i
    | relinking i e hf hc => exact h.withEntry i hf.inRange
  emptied {i s t} he h := by
    have hl : (s.lineWithout i).InRange := ⟨h.line.gap, h.line.dominant⟩
    cases he with
    | failed hs =>
      exact { h.withEntry i Entry.cleared_inRange with
        line := hl, units := (List.length_filter_le _ _).trans h.units, port := h.port.posted _, settings := h.settings }
    | standing hs =>
      refine BlocksInRange.stable.settle ?_
      exact { h.withEntry i Entry.cleared_inRange with
        line := hl
        relink := ⟨h.relink.counts, (List.length_filter_le _ _).trans h.relink.answers, h.relink.drops,
          h.relink.dropSends⟩
        switch := State.switchWithout_inRange h.switch i
        units := (List.length_filter_le _ _).trans h.units
        port := h.port.posted _
        settings := h.settings }
  anew s straps power mainOsc window retention :=
    { supply := ⟨show Config.calibrationMin ≤ Config.nominalA ∧ Config.nominalA ≤ Config.calibrationMax by decide,
        Nat.zero_le _, Nat.zero_le _, Nat.zero_le _, Nat.zero_le _⟩
      relink := ⟨⟨Nat.zero_le _, Nat.zero_le _, Nat.zero_le _⟩, Nat.zero_le _, Nat.zero_le _, nofun⟩
      line := ⟨Nat.zero_le _, Nat.zero_le _⟩
      switch := .parked SlotSwitch.cold SlotSwitch.cold.outbound
      entries := fun i => by
        have : (s.anew straps power mainOsc window retention).entry i = Entry.cleared := by
          simp [State.entry, State.anew, State.reset]
        rw [this]
        exact Entry.cleared_inRange
      units := Nat.zero_le _
      delivery := ⟨Nat.zero_le _, Nat.zero_lt_one⟩
      port := ⟨Nat.zero_le _, Nat.zero_lt_one, Nat.zero_le _, Nat.le_refl _⟩
      settings := Settings.defaults_inRange }
  queue _ h := { h with }

/-- Settles O53: the ranges, block by block, are kept by every move that a step is made of. -/
theorem stepsKeepRanges : Obligations.StepsKeepRanges := fun _ t hs h =>
  (inRange_iff t).2 (BlocksInRange.invariant.step ((inRange_iff _).1 hs) h)

end Sys2Proof.Machine

/-! What no command undoes (O1, O3, O9), and what an entry keeps until it is cleared (O10, O54). -/

namespace Sys2Proof.Machine

/-! ### What stands through every command but POWER_ON and a cold start -/

/-- The queue and the card slot stand, SILENCED stays, ACTIVE mode stays with its configuration, and the retention flag is
not set again (R44, R48, R67, R172). -/
structure State.Retains (s t : State) : Prop where
  pending : t.pending = s.pending
  cardSlot : t.cardSlot = s.cardSlot
  silenced : s.line.silenced = true → t.line.silenced = true
  active : s.active = true → t.active = true ∧ t.settings = s.settings
  retention : t.supply.retention = true → s.supply.retention = true

theorem State.Retains.trans {s t u : State} (h : s.Retains t) (g : t.Retains u) : s.Retains u where
  pending := g.pending.trans h.pending
  cardSlot := g.cardSlot.trans h.cardSlot
  silenced hs := g.silenced (h.silenced hs)
  active ha :=
    have ⟨ht, hset⟩ := h.active ha
    have ⟨hu, hset'⟩ := g.active ht
    ⟨hu, hset'.trans hset⟩
  retention hr := h.retention (g.retention hr)

/-- A state whose port keeps the mode and the configuration. -/
theorem State.Retains.of {s t : State} (hpend : t.pending = s.pending) (hslot : t.cardSlot = s.cardSlot)
    (hsil : t.line.silenced = s.line.silenced) (hport : t.port.mode = s.port.mode ∧ t.port.settings = s.port.settings)
    (hret : t.supply.retention = s.supply.retention) : s.Retains t where
  pending := hpend
  cardSlot := hslot
  silenced h := hsil.trans h
  active h := ⟨by simpa only [State.active, hport.1] using h, hport.2⟩
  retention h := hret.symm.trans h

theorem State.Retains.refl (s : State) : s.Retains s := .of rfl rfl rfl ⟨rfl, rfl⟩ rfl

theorem CardPort.latching_rest (p : CardPort) (v : LatchItems) :
    (p.latching v).mode = p.mode ∧ (p.latching v).settings = p.settings :=
  ⟨CardPort.latching_mode p v, CardPort.latching_settings p v⟩

theorem State.dropped_retains (s : State) (c : Circuit) (f : CardSlot) (r : DropReason) :
    s.Retains (s.dropped c f r) := by
  obtain ⟨ns, hns⟩ := s.dropped_port c f r
  rw [State.dropped_rest, hns]
  exact .of rfl rfl rfl ⟨rfl, rfl⟩ rfl

theorem State.Retains.checkAsked {s t : State} (h : s.Retains t) (i : Index) : s.Retains (t.checkAsked i) := by
  rw [State.checkAsked_rest]
  exact ⟨h.pending, h.cardSlot, h.silenced, h.active, h.retention⟩

theorem State.rolled_retains (s : State) : s.Retains s.rolled := by
  unfold State.rolled
  split
  · exact .of rfl rfl rfl ⟨rfl, rfl⟩ rfl
  · exact .of rfl rfl rfl ⟨rfl, rfl⟩ rfl
  · exact .refl s

theorem State.pendingAs_retains (s : State) (i : Index) (misses : Nat) : s.Retains (s.pendingAs i misses) := by
  refine .of rfl rfl rfl ?_ rfl
  show (CardPort.mode (if _ then _ else _)) = _ ∧ (CardPort.settings (if _ then _ else _)) = _
  split <;> exact ⟨rfl, rfl⟩

theorem ShelfLine.readBit_silenced (l : ShelfLine) (bit : Bool) : (l.readBit bit).silenced = l.silenced := by
  unfold ShelfLine.readBit
  rw [ShelfLine.countBit_eq]
  dsimp only
  split <;> rfl

theorem ShelfLine.goOn_silenced (l : ShelfLine) : l.goOn.silenced = l.silenced := by
  unfold ShelfLine.goOn
  split
  · rfl
  · split <;> rfl

theorem Move.retains {s t : State} (m : Move s t) : s.Retains t := by
  have latched := s.port.latching_rest
  cases m with
  | waited u h => exact ⟨rfl, rfl, id, fun ha => ⟨ha, rfl⟩, h.retention⟩
  | calibrated a fault window ha => exact .of rfl rfl rfl (latched _) rfl
  | held drive retention hr hd =>
    exact ⟨rfl, rfl, id, fun ha => ⟨by simpa only [State.active, CardPort.latching_mode] using ha, (latched _).2⟩, hr⟩
  | wokenActive t outbound hp hr ha ht => exact .of rfl rfl rfl ((s.port.posted _).latching_rest _) rfl
  | wokenConfig t outbound hp hr ha ht => exact .of rfl rfl rfl (latched _) rfl
  | offered => exact .of rfl rfl rfl (latched _) rfl
  | yielded =>
    rw [State.yielded_rest]
    exact .of rfl rfl rfl ⟨rfl, rfl⟩ rfl
  | stuck => exact .of rfl rfl rfl (latched _) rfl
  | hunted gap dominant hg hd => exact .of rfl rfl rfl (latched _) rfl
  | readLow => exact .of rfl rfl (ShelfLine.readBit_silenced _ _) (latched _) rfl
  | wentOn => exact .of rfl rfl (ShelfLine.goOn_silenced _) ⟨rfl, rfl⟩ rfl
  | heard f => exact .of rfl rfl rfl (latched _) rfl
  | clashed f hr hb =>
    exact ⟨rfl, rfl, fun _ => rfl, fun ha => ⟨by simpa only [State.active, CardPort.latching_mode] using ha,
      (latched _).2⟩, id⟩
  | receipted f r ha hs => exact .of rfl rfl rfl (latched _) rfl
  | rolled ha => exact s.rolled_retains
  | dropped c f r h => exact s.dropped_retains c f r
  | returned i misses hs hm => exact s.pendingAs_retains i misses
  | checking i hs hr ha hpres =>
    refine State.Retains.checkAsked ?_ i
    exact .of rfl rfl rfl ⟨rfl, rfl⟩ rfl
  | gained frame hr hl => exact .of rfl rfl rfl (latched _) rfl
  | ported p h => exact .of rfl rfl rfl ⟨h.mode, h.settings⟩ rfl
  | configured g ha hg hk => exact ⟨rfl, rfl, id, fun h => absurd h (by rw [ha]; nofun), id⟩
  | started tick ha => exact ⟨rfl, rfl, id, fun h => absurd h (by rw [ha]; nofun), id⟩
  | _ => exact .of rfl rfl rfl ⟨rfl, rfl⟩ rfl

theorem Shift.retains {s t : State} (f : Shift s t) : s.Retains t := by
  cases f with
  | joined i st late hs hr hst hp =>
    refine State.Retains.checkAsked ?_ i
    exact .of rfl rfl rfl ⟨rfl, rfl⟩ rfl
  | highwayLost hr => exact .of rfl rfl rfl (s.port.latching_rest _) rfl
  | _ => exact .of rfl rfl rfl ⟨rfl, rfl⟩ rfl

theorem State.Retains.stable (s : State) : Stable s.Retains s.Retains :=
  .same (fun m h => h.trans m.retains) (fun f h => h.trans f.retains)
    (fun _ h => h.trans (.of rfl rfl rfl ⟨rfl, rfl⟩ rfl))

theorem Effects.retains {s t : State} (h : Effects s t) : s.Retains t := (State.Retains.stable s).effects h (.refl s)

theorem Placed.retains {s t : State} (h : Placed s t) : s.Retains t := by
  cases h with
  | unlit i e hf hc hl => exact .of rfl rfl rfl ⟨rfl, rfl⟩ rfl
  | asked i e hf hc hp =>
    refine State.Retains.checkAsked ?_ i
    exact .of rfl rfl rfl ⟨rfl, rfl⟩ rfl
  | relinking i e hf hc => exact .of rfl rfl rfl ⟨rfl, rfl⟩ rfl

theorem Emptied.retains {i : Index} {s t : State} (h : Emptied i s t) : s.Retains t := by
  cases h with
  | failed hs => exact .of rfl rfl rfl ⟨rfl, rfl⟩ rfl
  | standing hs => exact (State.Retains.stable s).settle (s := s.takenOut i) (.of rfl rfl rfl ⟨rfl, rfl⟩ rfl)

theorem Turn.retains {c : Instr} {s t : State} (h : Turn c s t) (hk : keepsMemory c s) : s.Retains t := by
  cases h with
  | effects h => exact h.retains
  | written hc hp h => exact hp.retains.trans h.retains
  | cleared hc hu he h => exact (hu.retains.trans he.retains).trans h.retains
  | anew hc h => exact absurd hk hc

/-- Settles O1: the front of the queue is what a step takes. -/
theorem stepTakesFrontCommand : Obligations.StepTakesFrontCommand := fun _ _ _ => rfl

/-- Settles O3: every command has a next state, and no move that it is made of writes the queue. -/
theorem everyCommandCompletes : Obligations.EveryCommandCompletes := by
  intro c s
  obtain ⟨t, ht, hturn⟩ := exec_turn c s
  refine ⟨t, ht, ?_⟩
  cases hturn with
  | effects h => exact h.retains.pending
  | written hc hp h => exact (hp.retains.trans h.retains).pending
  | cleared hc hu he h => exact ((hu.retains.trans he.retains).trans h.retains).pending
  | anew hc h => rw [h]; rfl

theorem Turn.of_exec {c : Instr} {s t : State} (h : exec c s = .next t) : Turn c s t := by
  obtain ⟨u, hu, hturn⟩ := exec_turn c s
  rw [hu] at h
  cases h
  exact hturn

/-- Settles O9: no move that a command is made of undoes them. -/
theorem onlyColdStartUndoes : Obligations.OnlyColdStartUndoes := by
  intro c s t hk h
  have hr := (Turn.of_exec h).retains hk
  exact ⟨hr.cardSlot, hr.silenced, hr.active, fun hf => Bool.eq_false_iff.2 fun ht => by
    rw [hr.retention ht] at hf; cases hf⟩

/-! ### What an entry keeps -/

/-- An EMPTY or FAILED entry stands as it is, and any other keeps its half and does not become EMPTY; a failure record
stands exactly in FAILED, if it did before (R1, R2, R6). -/
structure Entry.Stands (e f : Entry) : Prop where
  empty : e.state = .empty → f = e
  kept : e.state ≠ .empty → f.state ≠ .empty ∧ f.sameHalf e
  failed : e.state = .failed → f = e
  failure : (e.failure.isSome = true ↔ e.state = .failed) → (f.failure.isSome = true ↔ f.state = .failed)

theorem Entry.sameHalf.trans {e f g : Entry} (h : f.sameHalf e) (k : g.sameHalf f) : g.sameHalf e := by
  obtain ⟨h1, h2, h3, h4, h5, h6, h7, h8, h9, h10⟩ := h
  obtain ⟨k1, k2, k3, k4, k5, k6, k7, k8, k9, k10⟩ := k
  exact ⟨k1.trans h1, k2.trans h2, k3.trans h3, k4.trans h4, k5.trans h5, k6.trans h6, k7.trans h7, k8.trans h8,
    k9.trans h9, k10.trans h10⟩

/-- Two entries that differ in what an entry keeps of its course alone (R2). -/
theorem Entry.sameHalf_of_rest {e f : Entry} (h : f = { e with
    state := f.state, txSeq := f.txSeq, rxExpected := f.rxExpected, attempt := f.attempt, misses := f.misses
    noReceipt := f.noReceipt, busy := f.busy, late := f.late, deadline := f.deadline, failure := f.failure }) :
    f.sameHalf e := by
  rw [h]
  exact ⟨rfl, rfl, rfl, rfl, rfl, rfl, rfl, rfl, rfl, rfl⟩

theorem Entry.Stands.refl (e : Entry) : e.Stands e :=
  ⟨fun _ => rfl, fun h => ⟨h, Entry.sameHalf_of_rest rfl⟩, fun _ => rfl, id⟩

theorem Entry.Stands.trans {e f g : Entry} (h : e.Stands f) (k : f.Stands g) : e.Stands g where
  empty he := by
    have := h.empty he
    subst this
    exact k.empty he
  kept hne :=
    have ⟨hf, hhalf⟩ := h.kept hne
    have ⟨hg, khalf⟩ := k.kept hf
    ⟨hg, hhalf.trans khalf⟩
  failed he := by
    have := h.failed he
    subst this
    exact k.failed he
  failure hi := k.failure (h.failure hi)

/-- A standing entry that keeps its half, and its failure record unless it fails. -/
theorem Entry.Stands.of_standing {e f : Entry} (hs : e.state.standing = true) (hne : f.state ≠ .empty)
    (hrest : f = { e with
      state := f.state, txSeq := f.txSeq, rxExpected := f.rxExpected, attempt := f.attempt, misses := f.misses
      noReceipt := f.noReceipt, busy := f.busy, late := f.late, deadline := f.deadline, failure := f.failure })
    (hf : f.state ≠ .failed ∧ f.failure = e.failure ∨ f.state = .failed ∧ f.failure.isSome = true) : e.Stands f := by
  obtain ⟨he, hnf⟩ := (EntryState.standing_iff _).1 hs
  refine ⟨fun h => absurd h he, fun _ => ⟨hne, Entry.sameHalf_of_rest hrest⟩, fun h => absurd h hnf, fun hi => ?_⟩
  rcases hf with ⟨hst, hfail⟩ | ⟨hst, hfail⟩
  · rw [hfail, hi]; simp [hst, hnf]
  · simp [hst, hfail]

/-- Every entry stands. -/
def State.Stands (s t : State) : Prop := ∀ i, (s.entry i).Stands (t.entry i)

theorem State.Stands.refl (s : State) : s.Stands s := fun i => .refl (s.entry i)

theorem State.Stands.trans {s t u : State} (h : s.Stands t) (k : t.Stands u) : s.Stands u := fun i => (h i).trans (k i)

theorem State.Stands.of_table {s t : State} (h : t.table = s.table) : s.Stands t := fun i => by
  rw [show t.entry i = s.entry i by simp only [State.entry, h]]
  exact .refl _

theorem State.Stands.of_set {s t : State} (i : Index) {e : Entry} (h : t.table = s.table.set i e)
    (he : (s.entry i).Stands e) : s.Stands t := fun j => by
  rw [entry_of_table_set s t i j e h]
  split
  · next hij => subst hij; exact he
  · exact .refl _

theorem Entry.Stands.atWake (e : Entry) : e.Stands e.atWake := by
  unfold Entry.atWake
  split
  · next h => exact .of_standing h nofun rfl (.inl ⟨nofun, rfl⟩)
  · exact .refl e

theorem Entry.Stands.withAbsent (e : Entry) (deadline : Nat) : e.Stands (e.withAbsent deadline) := by
  unfold Entry.withAbsent
  split
  · next h => exact .of_standing (by rw [h.1]; rfl) (by rw [h.1]; nofun) rfl (.inl ⟨by rw [h.1]; nofun, rfl⟩)
  · exact .refl e

theorem Entry.Stands.unlit (e : Entry) (w : SlotSwitch) (i : Index) : e.Stands (e.unlit w i) := by
  unfold Entry.unlit
  split
  · next h =>
    refine .of_standing ?_ nofun rfl (.inl ⟨nofun, rfl⟩)
    rcases h with h | ⟨-, h | h⟩ <;> (rw [h]; rfl)
  · exact .refl e

theorem State.Recounts.stands {s : State} {e f : Entry} (h : s.Recounts e f) : e.Stands f := by
  obtain ⟨he, hf⟩ := (EntryState.standing_iff _).1 h.standing
  have hst : f.state = e.state := by rw [h.rest]
  have hfail : f.failure = e.failure := by rw [h.rest]
  exact .of_standing h.standing (by rw [hst]; exact he) (by rw [h.rest]) (.inl ⟨by rw [hst]; exact hf, hfail⟩)

theorem State.rolled_table (s : State) : s.rolled.table = s.table := by
  unfold State.rolled
  split <;> rfl

theorem State.dropped_table (s : State) (c : Circuit) (f : CardSlot) (r : DropReason) :
    (s.dropped c f r).table = s.table := by rw [State.dropped_rest]

theorem State.yielded_table (s : State) : s.yielded.table = s.table := by rw [State.yielded_rest]

theorem State.checkAsked_table (s : State) (i : Index) : (s.checkAsked i).table = s.table := by
  rw [State.checkAsked_rest]

theorem Move.stands {s t : State} (m : Move s t) : s.Stands t := by
  cases m with
  | wokenActive t outbound hp hr ha ht =>
    intro i
    have : (s.entry i).Stands (s.entry i).atWake := .atWake _
    simpa [State.entry] using this
  | yielded => exact .of_table s.yielded_table
  | rolled ha => exact .of_table s.rolled_table
  | dropped c f r h => exact .of_table (s.dropped_table c f r)
  | recounted i e h => exact .of_set i rfl h.stands
  | returned i misses hs hm => exact .of_set i rfl (.of_standing hs nofun rfl (.inl ⟨nofun, rfl⟩))
  | deferred i misses tick hs hr hm =>
    refine .of_set i rfl (.of_standing ?_ nofun rfl (.inl ⟨nofun, rfl⟩))
    rcases hs with hs | hs <;> (rw [hs]; rfl)
  | bidTaken o f b i tick hb hf hs hr =>
    exact .of_set i rfl (.of_standing (by rw [hs]; rfl) nofun rfl (.inl ⟨nofun, rfl⟩))
  | checking i hs hr ha hpres =>
    exact .of_set i (State.checkAsked_table _ i) (.of_standing (by rw [hs]; rfl) nofun rfl (.inl ⟨nofun, rfl⟩))
  | submitted i content hs hu hc =>
    obtain ⟨he, hf⟩ := (EntryState.standing_iff _).1 hs
    exact .of_set i rfl (.of_standing hs he rfl (.inl ⟨hf, rfl⟩))
  | gathered absent settle hc =>
    intro i
    have : (s.entry i).Stands ((s.entry i).withAbsent absent) := .withAbsent _ _
    simpa [State.entry] using this
  | _ => exact .of_table rfl

theorem Shift.stands {s t : State} (f : Shift s t) : s.Stands t := by
  cases f with
  | failed i reason far hs => exact .of_set i rfl (.of_standing hs nofun rfl (.inr ⟨rfl, rfl⟩))
  | connected k c hc hs =>
    refine .of_set c.index rfl (.of_standing ?_ nofun rfl (.inl ⟨nofun, rfl⟩))
    rcases hs with hs | hs | hs <;> (rw [hs]; rfl)
  | freed k c hc hs => exact .of_table rfl
  | joined i st late hs hr hst hp =>
    refine .of_set i (State.checkAsked_table _ i) (.of_standing ?_ ?_ rfl (.inl ⟨?_, rfl⟩))
    · rcases hs with hs | hs | hs <;> (rw [hs]; rfl)
    · rcases hst with rfl | rfl <;> nofun
    · rcases hst with rfl | rfl <;> nofun
  | joinedLost i late hs hr hl =>
    refine .of_set i rfl (.of_standing ?_ nofun rfl (.inl ⟨nofun, rfl⟩))
    rcases hs with hs | hs | hs <;> (rw [hs]; rfl)
  | parked i hs hl => exact .of_set i rfl (.of_standing (by rw [hs]; rfl) nofun rfl (.inl ⟨nofun, rfl⟩))
  | highwayLost hr =>
    intro i
    have : (s.entry i).Stands ((s.entry i).unlit s.switch i) := .unlit _ _ _
    simpa [State.entry] using this
  | timedOut tick h => exact .of_table rfl

theorem State.Stands.stable (s : State) : Stable s.Stands s.Stands :=
  .same (fun m h => h.trans m.stands) (fun f h => h.trans f.stands) (fun _ h => h.trans (.of_table rfl))

theorem Effects.stands {s t : State} (h : Effects s t) : s.Stands t := (State.Stands.stable s).effects h (.refl s)

/-- The entry written was EMPTY, and no other is touched (R8, R9). -/
theorem Placed.entry {s t : State} (h : Placed s t) :
    ∃ i, (s.entry i).state = .empty ∧ ∀ j, j ≠ i → t.entry j = s.entry j := by
  have other : ∀ (u : State) (i j : Index) (e : Entry), u.table = s.table.set i e → j ≠ i → u.entry j = s.entry j :=
    fun u i j e hu hij => by rw [entry_of_table_set s u i j e hu, if_neg (Ne.symm hij)]
  cases h with
  | unlit i e hf hc hl => exact ⟨i, hf.empty, fun j hij => other _ i j _ rfl hij⟩
  | asked i e hf hc hp => exact ⟨i, hf.empty, fun j hij => other _ i j _ (State.checkAsked_table _ i) hij⟩
  | relinking i e hf hc => exact ⟨i, hf.empty, fun j hij => other _ i j _ rfl hij⟩

theorem State.endIfSettled_table (s : State) : s.endIfSettled.table = s.table := by
  by_cases h : s.settled
  · rw [s.endIfSettled_of_settled h]; rfl
  · rw [s.endIfSettled_of_not h]

/-- The entry cleared stood or had FAILED, is EMPTY, and no other is touched (R11, R12). -/
theorem Emptied.entry {i : Index} {s t : State} (h : Emptied i s t) :
    (s.entry i).state ≠ .empty ∧ t.table = s.table.set i Entry.cleared := by
  cases h with
  | failed hs => exact ⟨by rw [hs]; nofun, rfl⟩
  | standing hs => exact ⟨((EntryState.standing_iff _).1 hs).1, State.endIfSettled_table _⟩

/-- Settles O10: every move lets each entry stand; WRITE ENTRY writes an EMPTY one, and CLEAR ENTRY clears one. -/
theorem entriesKeepTheirHalf : Obligations.EntriesKeepTheirHalf := by
  intro c s t j hk hx
  have stands : ∀ {u v : State}, u.Stands v → (u.entry j).state ≠ .empty →
      (v.entry j).state ≠ .empty ∧ (v.entry j).sameHalf (u.entry j) ∧ ((u.entry j).state = .failed → v.entry j = u.entry j) :=
    fun h hne => ⟨((h j).kept hne).1, ((h j).kept hne).2, (h j).failed⟩
  cases Turn.of_exec hx with
  | effects h => exact ⟨fun he => .inl ((h.stands j).empty he), fun hne => .inr (stands h.stands hne)⟩
  | written hc hp h =>
    refine ⟨fun _ => .inr hc, fun hne => .inr ?_⟩
    obtain ⟨i, hi, hother⟩ := hp.entry
    have hji : j ≠ i := fun e => hne (e ▸ hi)
    have := stands h.stands (by rw [hother j hji]; exact hne)
    rwa [hother j hji] at this
  | @cleared u v i hc hu he h =>
    obtain ⟨hne, htable⟩ := he.entry
    have hv := entry_of_table_set u v i j Entry.cleared htable
    have hvt := h.stands j
    by_cases hij : i = j
    · subst hij
      rw [if_pos rfl] at hv
      rw [hv] at hvt
      exact ⟨fun hs => absurd (by rw [(hu.stands i).empty hs]; exact hs) hne, fun _ => .inl ⟨hc, hvt.empty rfl⟩⟩
    · rw [if_neg hij] at hv
      rw [hv] at hvt
      have hut := (hu.stands j).trans hvt
      exact ⟨fun hs => .inl (hut.empty hs), fun hs => .inr ⟨(hut.kept hs).1, (hut.kept hs).2, hut.failed⟩⟩
  | anew hc h => exact absurd hk hc

/-! ### The Circuit Table stays sound (O54) -/

theorem fingerprintOf_sameHalf (own : CardSlot) {e f : Entry} (h : f.sameHalf e) :
    fingerprintOf own f = fingerprintOf own e := by
  obtain ⟨h1, h2, h3, -, h5, h6, h7, h8, -, -⟩ := h
  simp only [fingerprintOf, fingerprintBytes, h1, h2, h3, h5, h6, h7, h8]

/-- Entries that stand keep the table sound. -/
theorem TableSound.of_stands {s t : State} (h : TableSound s) (hs : s.Stands t) (hc : t.cardSlot = s.cardSlot) :
    TableSound t := by
  have back : ∀ i, (t.entry i).state ≠ .empty → (s.entry i).state ≠ .empty := fun i hne he =>
    hne (by rw [(hs i).empty he]; exact he)
  have half : ∀ i, (t.entry i).sameHalf (s.entry i) := fun i => by
    by_cases he : (s.entry i).state = .empty
    · rw [(hs i).empty he]; exact Entry.sameHalf_of_rest rfl
    · exact ((hs i).kept he).2
  refine ⟨fun i hi => ?_, fun i hi => ?_, fun i => ?_, fun i hi => ?_, fun i j hi hj hij => ?_, fun i => ?_⟩
  · by_cases he : (s.entry i).state = .empty
    · rw [(hs i).empty he]; exact h.empty i he
    · exact absurd hi ((hs i).kept he).1
  · rw [(half i).1]; exact h.circuit i (back i hi)
  · obtain ⟨-, -, -, -, -, -, hcls, hord, hkey, -⟩ := half i
    rw [hcls, hord, hkey]
    exact h.key i
  · obtain ⟨-, -, -, -, -, -, -, -, -, hfp⟩ := half i
    rw [hc, fingerprintOf_sameHalf _ (half i), hfp]
    exact h.fingerprint i (back i hi)
  · obtain ⟨ci, -, -, chi, txi, -⟩ := half i
    obtain ⟨cj, -, -, chj, txj, -⟩ := half j
    rw [ci, cj, chi, chj, txi, txj]
    exact h.unique i j (back i hi) (back j hj) hij
  · exact (hs i).failure (h.failure i)

theorem TableSound.effects {s t : State} (e : Effects s t) (h : TableSound s) : TableSound t :=
  h.of_stands e.stands e.retains.cardSlot

/-- A table with one entry written sound, and apart from every other (R5). -/
theorem TableSound.of_set {s t : State} (h : TableSound s) (i : Index) (e : Entry) (ht : t.table = s.table.set i e)
    (hc : t.cardSlot = s.cardSlot) (hempty : e.state = .empty → e = Entry.cleared)
    (hcircuit : e.state ≠ .empty → e.circuit ≠ 0) (hkey : e.key = keyOf e.cls e.ordinal)
    (hfp : e.state ≠ .empty → e.fingerprint = fingerprintOf s.cardSlot e)
    (hunique : e.state ≠ .empty → ∀ j, j ≠ i → (s.entry j).state ≠ .empty →
      (s.entry j).circuit ≠ e.circuit ∧ (s.entry j).txSlot ≠ e.txSlot ∧ (s.entry j).channel ≠ e.channel)
    (hfail : e.failure.isSome = true ↔ e.state = .failed) : TableSound t := by
  have hent := fun j => entry_of_table_set s t i j e ht
  refine ⟨fun j hj => ?_, fun j hj => ?_, fun j => ?_, fun j hj => ?_, fun j k hj hk hjk => ?_, fun j => ?_⟩
  · rw [hent] at hj ⊢
    split at hj
    · next hij => rw [if_pos hij]; exact hempty hj
    · next hij => rw [if_neg hij]; exact h.empty j hj
  · rw [hent] at hj ⊢
    split at hj
    · next hij => rw [if_pos hij]; exact hcircuit hj
    · next hij => rw [if_neg hij]; exact h.circuit j hj
  · rw [hent]
    split
    · exact hkey
    · exact h.key j
  · rw [hent] at hj ⊢
    rw [hc]
    split at hj
    · next hij => rw [if_pos hij]; exact hfp hj
    · next hij => rw [if_neg hij]; exact h.fingerprint j hj
  · rw [hent] at hj hk ⊢
    rw [hent k]
    by_cases hij : i = j
    · subst hij
      rw [if_pos rfl] at hj ⊢
      rw [if_neg hjk] at hk ⊢
      obtain ⟨h1, h2, h3⟩ := hunique hj k (Ne.symm hjk) hk
      exact ⟨h1.symm, h2.symm, h3.symm⟩
    · rw [if_neg hij] at hj ⊢
      by_cases hik : i = k
      · subst hik
        rw [if_pos rfl] at hk ⊢
        exact hunique hk j (Ne.symm hij) hj
      · rw [if_neg hik] at hk ⊢
        exact h.unique j k hj hk hjk
  · rw [hent]
    split
    · exact hfail
    · exact h.failure j

theorem TableSound.placed {s t : State} (p : Placed s t) (h : TableSound s) : TableSound t := by
  cases p with
  | unlit i e hf hc hl =>
    exact h.of_set i e rfl rfl (fun he => by rw [hf.rest] at he; cases he) (fun _ => hf.circuit) hf.key
      (fun _ => hf.fingerprint) (fun _ j _ hj => hf.unique j hj) (by rw [hf.rest]; simp [Entry.cleared])
  | asked i e hf hc hp =>
    rw [State.checkAsked_rest]
    exact h.of_set i e rfl rfl (fun he => by rw [hf.rest] at he; cases he) (fun _ => hf.circuit) hf.key
      (fun _ => hf.fingerprint) (fun _ j _ hj => hf.unique j hj) (by rw [hf.rest]; simp [Entry.cleared])
  | relinking i e hf hc =>
    exact h.of_set i _ rfl rfl nofun (fun _ => hf.circuit) hf.key (fun _ => hf.fingerprint)
      (fun _ j _ hj => hf.unique j hj) (by rw [hf.rest]; simp [Entry.cleared])

theorem TableSound.emptied {i : Index} {s t : State} (e : Emptied i s t) (h : TableSound s) : TableSound t :=
  h.of_set i Entry.cleared e.entry.2 e.retains.cardSlot (fun _ => rfl) (fun hne => absurd rfl hne) (by decide)
    (fun hne => absurd rfl hne) (fun hne => absurd rfl hne) (by decide)

theorem State.anew_entry (s : State) (straps : CardSlot) (power : Power) (mainOsc : Bool) (window : Option Nat)
    (retention : Bool) (i : Index) : (s.anew straps power mainOsc window retention).entry i = Entry.cleared := by
  simp [State.entry, State.anew, State.reset]

/-- A part without entries has a sound table. -/
theorem TableSound.of_cleared {s : State} (h : ∀ i, s.entry i = Entry.cleared) : TableSound s where
  empty i _ := h i
  circuit i hi := absurd (by rw [h i]; rfl) hi
  key i := by rw [h i]; decide
  fingerprint i hi := absurd (by rw [h i]; rfl) hi
  unique i j hi := absurd (by rw [h i]; rfl) hi
  failure i := by rw [h i]; decide

theorem TableSound.invariant : Invariant TableSound where
  effects := TableSound.effects
  placed := TableSound.placed
  emptied := TableSound.emptied
  anew s _ _ _ _ _ := .of_cleared (s.anew_entry _ _ _ _ _)
  queue _ h := h.of_stands (.of_table rfl) rfl

/-- Settles O54: the moves let every entry stand, and WRITE ENTRY and CLEAR ENTRY write sound ones. -/
theorem stepsKeepTable : Obligations.StepsKeepTable := fun _ _ hs h => TableSound.invariant.step hs h

end Sys2Proof.Machine

/-! The status latch and SHELF LINE (O57). -/

namespace Sys2Proof.Machine

/-- The latch that is not pending shows the live values once it has seen them (R178). -/
theorem CardPort.latching_shown (p : CardPort) (v : LatchItems) (h : (p.latching v).latchPending = false) :
    (p.latching v).latch = v := by
  unfold CardPort.latching at h ⊢
  split at h
  · next hv =>
    rw [if_pos hv]
    exact hv.resolve_left (by rw [h]; nofun)
  · cases h

/-- SHELF LINE is STUCK while the dominant count is past 2000 (R55). -/
def ShelfLine.StuckSound (l : ShelfLine) : Prop := Config.stuckBits < l.dominant → l.stuck = true

theorem ShelfLine.StuckSound.of_le {l : ShelfLine} (h : l.dominant ≤ 2) : l.StuckSound := fun hd =>
  absurd (Nat.lt_of_lt_of_le hd h) (by decide)

/-- A state whose latch and live values stand. -/
theorem LatchSound.of_same {s t : State} (h : LatchSound s)
    (hp : t.port.latch = s.port.latch ∧ t.port.latchPending = s.port.latchPending) (hlive : t.live = s.live)
    (hl : t.line.StuckSound) : LatchSound t where
  shown ht := by
    rw [hp.1, hlive]
    exact h.shown (hp.2.symm.trans ht)
  stuck := hl

/-- A state whose latch has seen its live values. -/
theorem LatchSound.of_latching {t : State} (p : CardPort) (v : LatchItems) (hp : t.port = p.latching v)
    (hlive : t.live = v) (hl : t.line.StuckSound) : LatchSound t where
  shown ht := by
    rw [hlive, hp]
    exact p.latching_shown v (by rw [← hp]; exact ht)
  stuck := hl

/-- What the latch and the live values are read from: the line's counts, the highway state, CALIBRATION and the latch. -/
structure State.ShowsAs (s t : State) : Prop where
  latch : t.port.latch = s.port.latch ∧ t.port.latchPending = s.port.latchPending
  live : t.live = s.live
  line : t.line.dominant = s.line.dominant ∧ t.line.stuck = s.line.stuck

theorem LatchSound.of_shows {s t : State} (h : LatchSound s) (hs : s.ShowsAs t) : LatchSound t :=
  h.of_same hs.latch hs.live fun hd => by
    rw [hs.line.2]
    exact h.stuck (by rw [← hs.line.1]; exact hd)

theorem State.ShowsAs.refl (s : State) : s.ShowsAs s := ⟨⟨rfl, rfl⟩, rfl, rfl, rfl⟩

theorem State.dropped_shows (s : State) (c : Circuit) (f : CardSlot) (r : DropReason) : s.ShowsAs (s.dropped c f r) := by
  obtain ⟨ns, hns⟩ := s.dropped_port c f r
  rw [State.dropped_rest, hns]
  exact ⟨⟨rfl, rfl⟩, rfl, rfl, rfl⟩

theorem State.rolled_shows (s : State) : s.ShowsAs s.rolled := by
  unfold State.rolled
  split
  · exact ⟨⟨rfl, rfl⟩, rfl, rfl, rfl⟩
  · exact ⟨⟨rfl, rfl⟩, rfl, rfl, rfl⟩
  · exact .refl s

/-- A Slot Switch whose highway state stands shows the same live values. -/
theorem State.live_of_highway (s : State) (w : SlotSwitch) (h : w.highway = s.switch.highway) :
    State.live { s with switch := w } = s.live := by
  simp only [State.live, h]

theorem State.checkAsked_highway (s : State) (i : Index) : (s.checkAsked i).switch.highway = s.switch.highway := by
  unfold State.checkAsked
  split
  · rfl
  · exact SlotSwitch.fill_highway _ _

theorem State.ShowsAs.checkAsked {s t : State} (h : s.ShowsAs t) (i : Index) : s.ShowsAs (t.checkAsked i) := by
  rw [State.checkAsked_rest]
  exact ⟨h.latch, (t.live_of_highway _ (t.checkAsked_highway i)).trans h.live, h.line⟩

theorem State.switchWithout_highway (s : State) (i : Index) : (s.switchWithout i).highway = s.switch.highway :=
  SlotSwitch.withdraw_highway _ _

theorem State.pendingAs_shows (s : State) (i : Index) (misses : Nat) : s.ShowsAs (s.pendingAs i misses) := by
  refine ⟨?_, s.live_of_highway _ (s.switchWithout_highway i), rfl, rfl⟩
  show (CardPort.latch (if _ then _ else _)) = _ ∧ (CardPort.latchPending (if _ then _ else _)) = _
  split <;> exact ⟨rfl, rfl⟩

theorem ShelfLine.readBit_stuckSound (l : ShelfLine) : (l.readBit false).StuckSound := by
  have h : (l.countBit false).StuckSound := fun hd => by
    rw [ShelfLine.countBit_eq] at hd ⊢
    have : 2000 < l.dominant + 1 := Nat.lt_of_lt_of_le hd (Nat.min_le_left _ _)
    simp [this]
  unfold ShelfLine.readBit
  dsimp only
  split <;> exact h

theorem ShelfLine.goOn_stuck (l : ShelfLine) : l.goOn.stuck = l.stuck := by
  unfold ShelfLine.goOn
  split
  · rfl
  · split <;> rfl

theorem State.sendEnded_stuckSound (s : State) (h : s.line.StuckSound) (o : SendOutcome) :
    (s.sendEnded o).line.StuckSound := by
  cases o with
  | lost => exact h
  | aborted => exact h
  | taken => exact .of_le (Nat.zero_le _)
  | busy => exact .of_le (Nat.le_refl _)
  | noReceipt => exact .of_le (Nat.zero_le _)
  | outputFailed gap => exact .of_le (Nat.zero_le _)

theorem LatchSound.move {s t : State} (m : Move s t) (h : LatchSound s) : LatchSound t := by
  have one : ∀ {l : ShelfLine}, l.dominant = 1 → l.StuckSound := fun hl => .of_le (by rw [hl]; exact Nat.le_succ 1)
  cases m with
  | waited u hu => exact h.of_shows ⟨⟨rfl, rfl⟩, by simp only [State.live, hu.calFault], rfl, rfl⟩
  | calibrated a fault window ha => exact .of_latching s.port _ rfl rfl h.stuck
  | held drive retention hr hd => exact .of_latching s.port _ rfl rfl h.stuck
  | resetPort low edge => exact ⟨fun _ => rfl, h.stuck⟩
  | wokenActive t outbound hp hr ha ht => exact .of_latching _ _ rfl rfl (.of_le (Nat.zero_le _))
  | wokenConfig t outbound hp hr ha ht => exact .of_latching s.port _ rfl rfl (.of_le (Nat.zero_le _))
  | offered => exact .of_latching s.port _ rfl rfl (.of_le (Nat.zero_le _))
  | itemSent body dest ho hl => exact h.of_same ⟨rfl, rfl⟩ rfl (one rfl)
  | bidSent i figure ho hs hr hn => exact h.of_same ⟨rfl, rfl⟩ rfl (one rfl)
  | carrySent i ho hs hu => exact h.of_same ⟨rfl, rfl⟩ rfl (one rfl)
  | yielded =>
    rw [State.yielded_rest]
    exact h.of_shows ⟨⟨rfl, rfl⟩, rfl, rfl, rfl⟩
  | stuck => exact .of_latching s.port _ rfl rfl fun _ => rfl
  | hunted gap dominant hg hd => exact .of_latching s.port _ rfl rfl fun hlt => absurd hlt (Nat.not_lt.2 hd)
  | endedFrame => exact h.of_same ⟨rfl, rfl⟩ rfl (.of_le (receiptRun_le _))
  | readLow =>
    refine .of_latching s.port _ rfl ?_ s.line.readBit_stuckSound
    simp only [State.live, ShelfLine.readBit_silenced]
  | wentOn =>
    exact h.of_shows ⟨⟨rfl, rfl⟩, by simp only [State.live, State.onLine, ShelfLine.goOn_stuck, ShelfLine.goOn_silenced],
      s.line.goOn_counts.2, s.line.goOn_stuck⟩
  | heard f => exact .of_latching s.port _ rfl rfl (one rfl)
  | clashed f hr hb => exact .of_latching s.port _ rfl rfl (one rfl)
  | receipted f r ha hs => exact .of_latching s.port _ rfl rfl (one rfl)
  | sendEnded o f hb hf => exact h.of_same ⟨rfl, rfl⟩ rfl (s.sendEnded_stuckSound h.stuck o)
  | carryEnded o f hb => exact h.of_same ⟨rfl, rfl⟩ rfl (s.sendEnded_stuckSound h.stuck o)
  | rolled ha => exact h.of_shows s.rolled_shows
  | dropped c f r hd => exact h.of_shows (s.dropped_shows c f r)
  | returned i misses hs hm => exact h.of_shows (s.pendingAs_shows i misses)
  | bidTaken o f b i tick hb hf hs hr => exact h.of_same ⟨rfl, rfl⟩ rfl (s.sendEnded_stuckSound h.stuck o)
  | checking i hs hr ha hpres =>
    refine h.of_shows (State.ShowsAs.checkAsked ?_ i)
    exact ⟨⟨rfl, rfl⟩, rfl, rfl, rfl⟩
  | gained frame hr hl =>
    refine .of_latching s.port _ rfl ?_ h.stuck
    simp only [State.live, SlotSwitch.fill_highway]
    rfl
  | ported p hp => exact h.of_shows ⟨⟨hp.latch, hp.latchPending⟩, rfl, rfl, rfl⟩
  | rearmed => exact ⟨fun _ => rfl, h.stuck⟩
  | _ => exact h.of_shows ⟨⟨rfl, rfl⟩, rfl, rfl, rfl⟩

theorem LatchSound.shift {s t : State} (f : Shift s t) (h : LatchSound s) : LatchSound t := by
  cases f with
  | failed i reason far hs =>
    exact h.of_shows ⟨⟨rfl, rfl⟩, s.live_of_highway _ (s.switchWithout_highway i), rfl, rfl⟩
  | connected k c hc hs =>
    exact h.of_shows ⟨⟨rfl, rfl⟩, s.live_of_highway _ (SlotSwitch.fill_highway _ _), rfl, rfl⟩
  | freed k c hc hs =>
    exact h.of_shows ⟨⟨rfl, rfl⟩, s.live_of_highway _ (SlotSwitch.fill_highway _ _), rfl, rfl⟩
  | joined i st late hs hr hst hp =>
    refine h.of_shows (State.ShowsAs.checkAsked ?_ i)
    exact ⟨⟨rfl, rfl⟩, rfl, rfl, rfl⟩
  | highwayLost hr => exact .of_latching s.port _ rfl rfl h.stuck
  | _ => exact h.of_shows ⟨⟨rfl, rfl⟩, rfl, rfl, rfl⟩

theorem LatchSound.stable : Stable LatchSound LatchSound :=
  .same LatchSound.move LatchSound.shift fun _ h => h.of_shows ⟨⟨rfl, rfl⟩, rfl, rfl, rfl⟩

theorem LatchSound.invariant : Invariant LatchSound where
  effects := LatchSound.stable.effects
  placed {s t} p h := by
    cases p with
    | asked i e hf hc hp =>
      refine h.of_shows (State.ShowsAs.checkAsked ?_ i)
      exact ⟨⟨rfl, rfl⟩, rfl, rfl, rfl⟩
    | _ => exact h.of_shows ⟨⟨rfl, rfl⟩, rfl, rfl, rfl⟩
  emptied {i s t} e h := by
    cases e with
    | failed hs => exact h.of_shows ⟨⟨rfl, rfl⟩, rfl, rfl, rfl⟩
    | standing hs =>
      refine LatchSound.stable.settle (h.of_shows ?_)
      exact ⟨⟨rfl, rfl⟩, s.live_of_highway _ (s.switchWithout_highway i), rfl, rfl⟩
  anew s straps power mainOsc window retention := ⟨fun _ => rfl, ShelfLine.StuckSound.of_le (l := ShelfLine.cold) (Nat.zero_le _)⟩
  queue _ h := h.of_shows ⟨⟨rfl, rfl⟩, rfl, rfl, rfl⟩

/-- Settles O57: every move that changes a live value lets the latch see it. -/
theorem stepsKeepLatch : Obligations.StepsKeepLatch := fun _ _ hs h => LatchSound.invariant.step hs h

end Sys2Proof.Machine

/-! One bid at a time, and the states of one role with that role (O56). -/

namespace Sys2Proof.Machine

/-! ### The frame on the line -/

/-- A frame in the transmit buffer was there before, be its phase or its owner another. -/
def State.BufferFrom (s t : State) : Prop :=
  ∀ f, t.line.buffer = some f → ∃ g, s.line.buffer = some g ∧ g.frame = f.frame

theorem State.BufferFrom.of_eq {s t : State} (h : t.line.buffer = s.line.buffer) : s.BufferFrom t :=
  fun f hf => ⟨f, h ▸ hf, rfl⟩

theorem State.BufferFrom.of_none {s t : State} (h : t.line.buffer = none) : s.BufferFrom t := fun f hf => by
  rw [h] at hf; cases hf

theorem State.BufferFrom.bidOnLine {s t : State} (h : s.BufferFrom t) (hb : t.bidOnLine) : s.bidOnLine := by
  obtain ⟨f, b, hf, hbody⟩ := hb
  obtain ⟨g, hg, hframe⟩ := h f hf
  exact ⟨g, b, hg, hframe ▸ hbody⟩

theorem ShelfLine.goOn_frame (l : ShelfLine) (f : TxFrame) (h : l.goOn.buffer = some f) :
    ∃ g, l.buffer = some g ∧ g.frame = f.frame := by
  unfold ShelfLine.goOn at h
  split at h
  · next hb => rw [hb] at h; cases h
  · next g hb =>
    refine ⟨g, hb, ?_⟩
    split at h
    · cases h; rfl
    · cases h; rfl
    · rw [hb] at h; cases h; rfl

theorem State.lineWithout_frame (s : State) (i : Index) (f : TxFrame) (h : (s.lineWithout i).buffer = some f) :
    ∃ g, s.line.buffer = some g ∧ g.frame = f.frame := by
  obtain ⟨g, hg, rfl⟩ := Option.map_eq_some_iff.1 h
  exact ⟨g, hg, rfl⟩

theorem State.yielded_buffer (s : State) : s.yielded.line.buffer = s.line.buffer ∨ s.yielded.line.buffer = none := by
  unfold State.yielded
  split
  · exact .inl rfl
  · split
    · exact .inl rfl
    · exact .inr rfl

theorem State.BufferFrom.yielded (s : State) : s.BufferFrom s.yielded :=
  s.yielded_buffer.elim .of_eq .of_none

theorem ShelfLine.readBit_buffer (l : ShelfLine) (bit : Bool) : (l.readBit bit).buffer = l.buffer := by
  unfold ShelfLine.readBit
  rw [ShelfLine.countBit_eq]
  dsimp only
  split <;> rfl

/-- A BID is no item of a list (R69). -/
theorem State.lists.not_bid {s : State} {body : FrameBody} {dest : Destination} (h : s.lists body dest) (b : Bid) :
    body ≠ .bid b := by
  rcases h with ⟨a, -, rfl, -⟩ | ⟨r, rfl, -⟩ | ⟨d, -, rfl, -⟩ <;> nofun

theorem State.lists.not_carry {s : State} {body : FrameBody} {dest : Destination} (h : s.lists body dest) (c : Carry) :
    body ≠ .carry c := by
  rcases h with ⟨a, -, rfl, -⟩ | ⟨r, rfl, -⟩ | ⟨d, -, rfl, -⟩ <;> nofun

/-! ### Which entries bid -/

/-- The state of an entry stands with its role (Table 1-2, R100). -/
def Entry.RoleSound (e : Entry) : Prop :=
  (e.state = .bidding ∨ e.state = .deferred ∨ e.state = .joining → e.role = .origin)
    ∧ (e.state = .checking → e.role = .far)

theorem BiddingSound.roles {s : State} (h : BiddingSound s) (i : Index) : (s.entry i).RoleSound :=
  ⟨h.origin i, h.far i⟩

/-- The same entries bid, with the same timer. -/
theorem BiddingSound.of_same {s t : State} (h : BiddingSound s)
    (hbid : ∀ i, (t.entry i).state = .bidding ↔ (s.entry i).state = .bidding)
    (htimer : t.relink.answerTimer = s.relink.answerTimer)
    (hline : t.bidOnLine → ∀ i, (s.entry i).state ≠ .bidding) (hroles : ∀ i, (t.entry i).RoleSound) : BiddingSound t where
  one i j hi hj := h.one i j ((hbid i).1 hi) ((hbid j).1 hj)
  timer := by
    rw [htimer, h.timer]
    exact exists_congr fun i => (hbid i).symm
  line hb i hi := hline hb i ((hbid i).1 hi)
  origin i := (hroles i).1
  far i := (hroles i).2

/-- No entry is touched, and no BID goes on the line. -/
theorem BiddingSound.of_table {s t : State} (h : BiddingSound s) (ht : t.table = s.table)
    (htimer : t.relink.answerTimer = s.relink.answerTimer) (hline : s.BufferFrom t) : BiddingSound t := by
  have he : ∀ i, t.entry i = s.entry i := fun i => by simp only [State.entry, ht]
  exact h.of_same (fun i => by rw [he]) htimer (fun hb => h.line (hline.bidOnLine hb)) fun i => by
    rw [he]; exact h.roles i

/-- Each entry keeps its role, and its state unless it bids neither before nor after. -/
theorem BiddingSound.of_entries {s t : State} (h : BiddingSound s)
    (hent : ∀ i, (t.entry i).role = (s.entry i).role ∧
      ((t.entry i).state = (s.entry i).state ∨ ((s.entry i).state ≠ .bidding ∧ (t.entry i).state ≠ .bidding
        ∧ (t.entry i).RoleSound)))
    (htimer : t.relink.answerTimer = s.relink.answerTimer) (hline : s.BufferFrom t) : BiddingSound t := by
  refine h.of_same (fun i => ?_) htimer (fun hb => h.line (hline.bidOnLine hb)) fun i => ?_
  · rcases (hent i).2 with he | ⟨hs, ht, -⟩
    · rw [he]
    · exact ⟨fun e => absurd e ht, fun e => absurd e hs⟩
  · rcases hent i with ⟨hrole, he | ⟨-, -, hsound⟩⟩
    · unfold Entry.RoleSound
      rw [he, hrole]
      exact h.roles i
    · exact hsound

/-- An entry leaves BIDDING, or was not there, and its timer stops with it (R95). -/
theorem BiddingSound.of_leaving {s t : State} (h : BiddingSound s) (i : Index) {e : Entry}
    (ht : t.table = s.table.set i e) (htimer : t.relink.answerTimer = s.timerWithout i) (he : e.state ≠ .bidding)
    (hrole : e.RoleSound) (hline : s.BufferFrom t) : BiddingSound t := by
  have hent := fun j => entry_of_table_set s t i j e ht
  have bids : ∀ j, (t.entry j).state = .bidding ↔ i ≠ j ∧ (s.entry j).state = .bidding := fun j => by
    rw [hent]
    split
    · next hij => exact ⟨fun h => absurd h he, fun h => absurd hij h.1⟩
    · next hij => exact ⟨fun h => ⟨hij, h⟩, fun h => h.2⟩
  constructor
  · exact fun j k hj hk => h.one j k ((bids j).1 hj).2 ((bids k).1 hk).2
  · rw [htimer, State.timerWithout]
    split
    · next hi =>
      refine ⟨nofun, fun ⟨j, hj⟩ => ?_⟩
      obtain ⟨hij, hj⟩ := (bids j).1 hj
      exact absurd (h.one i j hi hj) hij
    · next hi =>
      rw [h.timer]
      refine exists_congr fun j => ((bids j).trans ⟨fun h => h.2, fun hj => ⟨?_, hj⟩⟩).symm
      rintro rfl
      exact hi hj
  · exact fun hb j hj => h.line (hline.bidOnLine hb) j ((bids j).1 hj).2
  · intro j
    rw [hent]
    split
    · exact hrole.1
    · exact h.origin j
  · intro j
    rw [hent]
    split
    · exact hrole.2
    · exact h.far j

theorem State.timerWithout_of_not (s : State) (i : Index) (h : (s.entry i).state ≠ .bidding) :
    s.timerWithout i = s.relink.answerTimer := if_neg h

/-- An entry is written whose state and role stand. -/
theorem BiddingSound.of_recounted {s t : State} (h : BiddingSound s) (i : Index) {e : Entry}
    (ht : t.table = s.table.set i e) (hst : e.state = (s.entry i).state) (hrole : e.role = (s.entry i).role)
    (htimer : t.relink.answerTimer = s.relink.answerTimer) (hline : s.BufferFrom t) : BiddingSound t := by
  refine h.of_entries (fun j => ?_) htimer hline
  rw [entry_of_table_set s t i j e ht]
  split
  · next hij => subst hij; exact ⟨hrole, .inl hst⟩
  · exact ⟨rfl, .inl rfl⟩

theorem Entry.atWake_not_bidding (e : Entry) : e.atWake.state ≠ .bidding ∧ e.atWake.RoleSound := by
  unfold Entry.atWake
  split
  · exact ⟨nofun, nofun, nofun⟩
  · next h =>
    have hs := (EntryState.standing_iff e.state).not.1 h
    refine ⟨fun hb => hs (by rw [hb]; exact ⟨nofun, nofun⟩), fun hb => ?_, fun hb => ?_⟩
    · rcases hb with hb | hb | hb <;> exact absurd (by rw [hb]; exact ⟨nofun, nofun⟩) hs
    · exact absurd (by rw [hb]; exact ⟨nofun, nofun⟩) hs

theorem Entry.withAbsent_state (e : Entry) (d : Nat) :
    (e.withAbsent d).state = e.state ∧ (e.withAbsent d).role = e.role := by
  unfold Entry.withAbsent
  split <;> exact ⟨rfl, rfl⟩

/-- A BID goes on the line while none bids (R90, R91). -/
theorem BiddingSound.of_sent {s t : State} (h : BiddingSound s) (ht : t.table = s.table)
    (htimer : t.relink.answerTimer = s.relink.answerTimer) (hn : t.bidOnLine → ∀ i, (s.entry i).state ≠ .bidding) :
    BiddingSound t := by
  have he : ∀ i, t.entry i = s.entry i := fun i => by simp only [State.entry, ht]
  exact h.of_same (fun i => by rw [he]) htimer hn fun i => by rw [he]; exact h.roles i

theorem State.bidOnLine_of_sending {t : State} {body : FrameBody} {f : TxFrame} (hb : t.line.buffer = some f)
    (hf : f.frame.body = body) (h : ∀ b, body ≠ .bid b) : ¬ t.bidOnLine := by
  rintro ⟨g, b, hg, hbody⟩
  rw [hb] at hg
  cases hg
  exact h b (hf ▸ hbody)

/-- The BID on the line is taken, and its entry alone bids (R92). -/
theorem BiddingSound.bidTaken {s t : State} (h : BiddingSound s) (i : Index) {e : Entry} (hb : s.bidOnLine)
    (ht : t.table = s.table.set i e) (he : e.state = .bidding) (hrole : e.role = .origin)
    (htimer : t.relink.answerTimer.isSome = true) (hline : t.line.buffer = none) : BiddingSound t := by
  have hent := fun j => entry_of_table_set s t i j e ht
  have alone : ∀ j, (t.entry j).state = .bidding → j = i := fun j hj => by
    rw [hent] at hj
    split at hj
    · next hij => exact hij.symm
    · exact absurd hj (h.line hb j)
  have hi : (t.entry i).state = .bidding := by rw [hent, if_pos rfl]; exact he
  refine ⟨fun j k hj hk => (alone j hj).trans (alone k hk).symm, ⟨fun _ => ⟨i, hi⟩, fun _ => htimer⟩, ?_, ?_, ?_⟩
  · rintro ⟨f, b, hf, -⟩
    rw [hline] at hf
    cases hf
  · intro j
    rw [hent]
    split
    · exact fun _ => hrole
    · exact h.origin j
  · intro j
    rw [hent]
    split
    · rw [he]; nofun
    · exact h.far j

theorem State.dropped_same (s : State) (c : Circuit) (f : CardSlot) (r : DropReason) :
    (s.dropped c f r).relink.answerTimer = s.relink.answerTimer ∧ (s.dropped c f r).line = s.line := by
  rw [State.dropped_rest]
  exact ⟨rfl, rfl⟩

theorem State.rolled_same (s : State) : s.rolled.relink.answerTimer = s.relink.answerTimer ∧ s.rolled.line = s.line := by
  unfold State.rolled
  split <;> exact ⟨rfl, rfl⟩

theorem State.checkAsked_same (s : State) (i : Index) :
    (s.checkAsked i).relink = s.relink ∧ (s.checkAsked i).line = s.line := by
  rw [State.checkAsked_rest]
  exact ⟨rfl, rfl⟩

theorem BiddingSound.checkAsked {s : State} (h : BiddingSound s) (i : Index) : BiddingSound (s.checkAsked i) := by
  rw [State.checkAsked_rest]
  exact h.of_table rfl rfl (.of_eq rfl)

theorem BiddingSound.move {s t : State} (m : Move s t) (h : BiddingSound s) : BiddingSound t := by
  cases m with
  | held drive retention hr hd => exact h.of_table rfl rfl (.of_none rfl)
  | wokenActive t outbound hp hr ha ht =>
    have hent : ∀ i : Index, (s.table.map Entry.atWake)[i] = (s.entry i).atWake := fun i => by simp [State.entry]
    have none_ : ∀ i : Index, (s.table.map Entry.atWake)[i].state ≠ .bidding := fun i => by
      rw [hent]; exact (s.entry i).atWake_not_bidding.1
    have roles : ∀ i : Index, (s.table.map Entry.atWake)[i].RoleSound := fun i => by
      rw [hent]; exact (s.entry i).atWake_not_bidding.2
    exact ⟨fun i _ hi => absurd hi (none_ i), ⟨nofun, fun ⟨i, hi⟩ => absurd hi (none_ i)⟩, fun _ => none_,
      fun i => (roles i).1, fun i => (roles i).2⟩
  | wokenConfig t outbound hp hr ha ht => exact h.of_table rfl rfl (.of_none rfl)
  | itemSent body dest ho hl =>
    exact h.of_sent rfl rfl fun hb => absurd hb (State.bidOnLine_of_sending rfl rfl hl.not_bid)
  | bidSent i figure ho hs hr hn => exact h.of_sent rfl rfl fun _ => hn
  | carrySent i ho hs hu =>
    exact h.of_sent rfl rfl fun hb => absurd hb (State.bidOnLine_of_sending rfl rfl nofun)
  | yielded =>
    have hline := State.BufferFrom.yielded s
    rw [State.yielded_rest] at hline ⊢
    exact h.of_table rfl rfl hline
  | readLow => exact h.of_table rfl rfl (.of_eq (s.line.readBit_buffer false))
  | wentOn => exact h.of_table rfl rfl s.line.goOn_frame
  | sendEnded o f hb hf => exact h.of_table rfl rfl (.of_none rfl)
  | carryEnded o f hb => exact h.of_table rfl rfl (.of_none rfl)
  | rolled ha => exact h.of_table s.rolled_table s.rolled_same.1 (.of_eq (by rw [s.rolled_same.2]))
  | dropped c f r hd =>
    obtain ⟨htimer, hline⟩ := s.dropped_same c f r
    exact h.of_table (s.dropped_table c f r) htimer (.of_eq (by rw [hline]))
  | recounted i e he => exact h.of_recounted i rfl (by rw [he.rest]) (by rw [he.rest]) rfl (.of_eq rfl)
  | returned i misses hs hm => exact h.of_leaving i rfl rfl nofun ⟨nofun, nofun⟩ (.of_eq rfl)
  | deferred i misses tick hs hr hm =>
    refine h.of_leaving i rfl rfl nofun ⟨fun _ => ?_, nofun⟩ (.of_eq rfl)
    rcases hs with hs | hs
    · exact hr hs
    · exact h.origin i (.inl hs)
  | bidTaken o f b i tick hb hf hs hr => exact h.bidTaken i ⟨f, b, hb, hf⟩ rfl rfl hr rfl rfl
  | checking i hs hr ha hpres =>
    refine BiddingSound.checkAsked ?_ i
    exact h.of_leaving i rfl (s.timerWithout_of_not i (by rw [hs]; nofun)).symm nofun ⟨nofun, fun _ => hr⟩ (.of_eq rfl)
  | submitted i content hs hu hc => exact h.of_recounted i rfl rfl rfl rfl (.of_eq rfl)
  | gathered absent settle hc =>
    refine h.of_entries (fun i => ?_) rfl (.of_eq rfl)
    have hent : (s.table.map (Entry.withAbsent absent))[i] = (s.entry i).withAbsent absent := by simp [State.entry]
    obtain ⟨hst, hrole⟩ := (s.entry i).withAbsent_state absent
    show (s.table.map (Entry.withAbsent absent))[i].role = _ ∧ _
    exact ⟨by rw [hent]; exact hrole, .inl (by show (s.table.map (Entry.withAbsent absent))[i].state = _; rw [hent]; exact hst)⟩
  | _ => exact h.of_table rfl rfl (.of_eq rfl)

theorem Entry.unlit_role (e : Entry) (w : SlotSwitch) (i : Index) : (e.unlit w i).role = e.role ∧
    ((e.unlit w i).state = e.state ∨ (e.state ≠ .bidding ∧ (e.unlit w i).state ≠ .bidding ∧ (e.unlit w i).RoleSound)) := by
  unfold Entry.unlit
  split
  · next h =>
    refine ⟨rfl, .inr ⟨?_, nofun, nofun, nofun⟩⟩
    rcases h with h | ⟨-, h | h⟩ <;> (rw [h]; nofun)
  · exact ⟨rfl, .inl rfl⟩

theorem BiddingSound.joinedAs {s : State} (h : BiddingSound s) (i : Index) (st : EntryState) (late : Bool)
    (hr : (s.entry i).role = .origin) (hst : st = .joining ∨ st = .parked) : BiddingSound (s.joinedAs i st late) := by
  refine h.of_leaving i rfl rfl ?_ ⟨fun _ => hr, ?_⟩ (.of_eq rfl)
  · rcases hst with rfl | rfl <;> nofun
  · rcases hst with rfl | rfl <;> nofun

theorem EntryState.awaitsCheck.not_bidding {st : EntryState} (h : st.awaitsCheck) : st ≠ .bidding := by
  rcases h with rfl | rfl | rfl <;> nofun

theorem BiddingSound.shift {s t : State} (f : Shift s t) (h : BiddingSound s) : BiddingSound t := by
  cases f with
  | failed i reason far hs => exact h.of_leaving i rfl rfl nofun ⟨nofun, nofun⟩ (.of_eq rfl)
  | connected k c hc hs =>
    exact h.of_leaving c.index rfl (s.timerWithout_of_not c.index hs.not_bidding).symm nofun ⟨nofun, nofun⟩ (.of_eq rfl)
  | freed k c hc hs => exact h.of_table rfl rfl (.of_eq rfl)
  | joined i st late hs hr hst hp => exact (h.joinedAs i st late hr hst).checkAsked i
  | joinedLost i late hs hr hl => exact h.joinedAs i .parked late hr (.inr rfl)
  | parked i hs hl =>
    exact h.of_leaving i rfl (s.timerWithout_of_not i (by rw [hs]; nofun)).symm nofun ⟨nofun, nofun⟩ (.of_eq rfl)
  | highwayLost hr =>
    refine h.of_entries (fun i => ?_) rfl (.of_eq rfl)
    have := (s.entry i).unlit_role s.switch i
    simpa [State.entry] using this
  | timedOut tick ht => exact h.of_table rfl rfl (.of_eq rfl)

theorem BiddingSound.stable : Stable BiddingSound BiddingSound :=
  .same BiddingSound.move BiddingSound.shift fun _ h => h.of_table rfl rfl (.of_eq rfl)

theorem BiddingSound.placedAs {s : State} (h : BiddingSound s) (i : Index) (e : Entry) (hs : (s.entry i).state = .empty)
    (he : e.state = .parked ∨ e.state = .pending) : BiddingSound (s.withEntry i e) := by
  refine h.of_leaving i rfl (s.timerWithout_of_not i (by rw [hs]; nofun)).symm ?_ ⟨?_, ?_⟩ (.of_eq rfl)
  · rcases he with he | he <;> (rw [he]; nofun)
  · rcases he with he | he <;> (rw [he]; nofun)
  · rcases he with he | he <;> (rw [he]; nofun)

theorem State.Fresh.parked {s : State} {i : Index} {e : Entry} (h : s.Fresh i e) : e.state = .parked := by rw [h.rest]

theorem BiddingSound.invariant : Invariant BiddingSound where
  effects := BiddingSound.stable.effects
  placed {s t} p h := by
    cases p with
    | unlit i e hf hc hl => exact h.placedAs i e hf.empty (.inl hf.parked)
    | asked i e hf hc hp => exact (h.placedAs i e hf.empty (.inl hf.parked)).checkAsked i
    | relinking i e hf hc => exact h.placedAs i _ hf.empty (.inr rfl)
  emptied {i s t} e h := by
    cases e with
    | failed hs =>
      exact h.of_leaving i rfl (s.timerWithout_of_not i (by rw [hs]; nofun)).symm nofun ⟨nofun, nofun⟩
        (s.lineWithout_frame i)
    | standing hs =>
      refine BiddingSound.stable.settle ?_
      exact h.of_leaving i rfl rfl nofun ⟨nofun, nofun⟩ (s.lineWithout_frame i)
  anew s straps power mainOsc window retention := by
    have hent := s.anew_entry straps power mainOsc window retention
    refine ⟨fun i j hi => ?_, ⟨nofun, fun ⟨i, hi⟩ => ?_⟩, fun _ i hi => ?_, fun i hi => ?_, fun i hi => ?_⟩
    · rw [hent] at hi; cases hi
    · rw [hent] at hi; cases hi
    · rw [hent] at hi; cases hi
    · rw [hent] at hi; rcases hi with hi | hi | hi <;> cases hi
    · rw [hent] at hi; cases hi
  queue _ h := h.of_table rfl rfl (.of_eq rfl)

/-- Settles O56: BIDDING begins with the receipt of the BID on the line and ends with its timer. -/
theorem stepsKeepOneBid : Obligations.StepsKeepOneBid := fun _ _ hs h => BiddingSound.invariant.step hs h

end Sys2Proof.Machine

/-! The signalling order of each entry's units (O59). -/

namespace Sys2Proof.Machine

/-! ### One entry's units -/

/-- The units of one entry, in queue order: their sequences run on without a gap up to the next, and the marked ones are
the oldest (R134, R141). -/
structure RunSound (l : List QueuedUnit) (next : Byte) : Prop where
  sequence : ∀ n u, l[n]? = some u → u.sequence + BitVec.ofNat 8 (l.length - n) = next
  oldest : ∀ (m n : Nat) u v, m < n → l[m]? = some u → l[n]? = some v → v.inFlight = true → u.inFlight = true

theorem RunSound.nil (next : Byte) : RunSound [] next := ⟨nofun, nofun⟩

theorem RunSound.drop {l : List QueuedUnit} {next : Byte} (h : RunSound l next) (k : Nat) : RunSound (l.drop k) next where
  sequence n u hu := by
    rw [List.getElem?_drop] at hu
    have := h.sequence (k + n) u hu
    rwa [List.length_drop, Nat.sub_sub]
  oldest m n u v hmn hu hv := by
    rw [List.getElem?_drop] at hu hv
    exact h.oldest (k + m) (k + n) u v (Nat.add_lt_add_left hmn k) hu hv

/-- The units that stay once the marked ones are released are the youngest (R141, R143). -/
theorem filter_oldest (l : List QueuedUnit)
    (h : ∀ (m n : Nat) u v, m < n → l[m]? = some u → l[n]? = some v → v.inFlight = true → u.inFlight = true) :
    ∃ k, l.filter (fun u => !u.inFlight) = l.drop k := by
  induction l with
  | nil => exact ⟨0, rfl⟩
  | cons u l ih =>
    cases hu : u.inFlight with
    | true =>
      obtain ⟨k, hk⟩ := ih fun m n x y hmn hx hy => h (m + 1) (n + 1) x y (Nat.succ_lt_succ hmn) hx hy
      exact ⟨k + 1, by simp [hu, hk]⟩
    | false =>
      refine ⟨0, List.filter_eq_self.2 fun v hv => ?_⟩
      rcases List.mem_cons.1 hv with rfl | hv
      · rw [hu]; rfl
      · obtain ⟨n, hn⟩ := List.mem_iff_getElem?.1 hv
        by_contra hm
        have := h 0 (n + 1) u v (Nat.succ_pos n) rfl hn (by simpa using hm)
        rw [hu] at this
        cases this

theorem RunSound.released {l : List QueuedUnit} {next : Byte} (h : RunSound l next) :
    RunSound (l.filter fun u => !u.inFlight) next := by
  obtain ⟨k, hk⟩ := filter_oldest l h.oldest
  rw [hk]
  exact h.drop k

theorem RunSound.unmarked {l : List QueuedUnit} {next : Byte} (h : RunSound l next) :
    RunSound (l.map fun u => { u with inFlight := false }) next where
  sequence n u hu := by
    rw [List.getElem?_map, Option.map_eq_some_iff] at hu
    obtain ⟨x, hx, rfl⟩ := hu
    rw [List.length_map]
    exact h.sequence n x hx
  oldest m n u v hmn hu hv hm := by
    rw [List.getElem?_map, Option.map_eq_some_iff] at hv
    obtain ⟨x, hx, rfl⟩ := hv
    cases hm

/-- A unit joins the tail with the next sequence (R134, R136). -/
theorem RunSound.append {l : List QueuedUnit} {next : Byte} (h : RunSound l next) (u : QueuedUnit)
    (hs : u.sequence = next) (hm : u.inFlight = false) : RunSound (l ++ [u]) (next + 1) where
  sequence n v hv := by
    rw [List.length_append, List.length_singleton]
    rcases Nat.lt_trichotomy n l.length with hn | rfl | hn
    · rw [List.getElem?_append_left hn] at hv
      have := h.sequence n v hv
      rw [Nat.sub_add_comm (Nat.le_of_lt hn), BitVec.ofNat_add, ← BitVec.add_assoc, this]
      rfl
    · rw [List.getElem?_concat_length, Option.some.injEq] at hv
      rw [← hv, hs, Nat.add_sub_cancel_left]
      rfl
    · rw [List.getElem?_eq_none (by simp; omega)] at hv
      cases hv
  oldest m n v w hmn hv hw hmark := by
    rcases Nat.lt_trichotomy n l.length with hn | rfl | hn
    · rw [List.getElem?_append_left hn] at hw
      rw [List.getElem?_append_left (hmn.trans hn)] at hv
      exact h.oldest m n v w hmn hv hw hmark
    · rw [List.getElem?_concat_length, Option.some.injEq] at hw
      rw [← hw, hm] at hmark
      cases hmark
    · rw [List.getElem?_eq_none (by simp; omega)] at hw
      cases hw

/-- The oldest units of the entry are marked (R140). -/
theorem RunSound.marked {l : List QueuedUnit} {next : Byte} (h : RunSound l next) (k : Nat)
    (hn : ∀ u ∈ l, u.inFlight = false) :
    RunSound ((l.take k).map (fun u => { u with inFlight := true }) ++ l.drop k) next where
  sequence n u hu := by
    have hlen : ((l.take k).map (fun u : QueuedUnit => { u with inFlight := true }) ++ l.drop k).length = l.length := by
      simp; omega
    rw [hlen]
    rw [List.getElem?_append] at hu
    simp only [List.length_map, List.length_take] at hu
    split at hu
    · next hlt =>
      rw [List.getElem?_map, List.getElem?_take_of_lt (by omega), Option.map_eq_some_iff] at hu
      obtain ⟨x, hx, rfl⟩ := hu
      exact h.sequence n x hx
    · next hlt =>
      rw [List.getElem?_drop] at hu
      by_cases hk : k ≤ l.length
      · rw [show k + (n - min k l.length) = n by omega] at hu
        exact h.sequence n u hu
      · rw [List.getElem?_eq_none (by omega)] at hu
        cases hu
  oldest m n u v hmn hu hv hm := by
    rw [List.getElem?_append] at hu hv
    simp only [List.length_map, List.length_take] at hu hv
    split at hv
    · next hlt =>
      rw [if_pos (hmn.trans hlt), List.getElem?_map, Option.map_eq_some_iff] at hu
      obtain ⟨x, -, rfl⟩ := hu
      rfl
    · rw [hn v (List.mem_of_mem_drop (List.mem_of_getElem? hv))] at hm
      cases hm

/-- What composing a CARRY marks of an entry's units: the first of its own, and none of another's (R140). -/
theorem markUnits_filter (i j : Index) (k : Nat) (us : List QueuedUnit) :
    (markUnits i k us).filter (fun u => u.entry == j) =
      if i = j then ((us.filter fun u => u.entry == j).take k).map (fun u => { u with inFlight := true })
        ++ (us.filter fun u => u.entry == j).drop k
      else us.filter fun u => u.entry == j := by
  induction us generalizing k with
  | nil => cases k <;> simp [markUnits]
  | cons u us ih =>
    cases k with
    | zero => simp [markUnits]
    | succ k =>
      unfold markUnits
      by_cases hu : u.entry = i
      · subst hu
        rw [if_pos rfl]
        by_cases hj : u.entry = j
        · have := ih k
          rw [hj] at this
          simp [hj, this]
        · have := ih k
          simp [hj, this]
      · rw [if_neg hu, List.filter_cons, ih, List.filter_cons]
        by_cases hj : u.entry = j
        · have hij : i ≠ j := fun e => hu (hj.trans e.symm)
          simp [hj, hij]
        · simp [hj]

/-! ### The rule, by entry -/

/-- A CARRY is in the transmit buffer. -/
def State.carryOnLine (s : State) : Prop := ∃ f c, s.line.buffer = some f ∧ f.frame.body = .carry c

/-- `UnitsSound`, with the units of each entry apart. -/
structure UnitsKept (s : State) : Prop where
  owner : ∀ u ∈ s.units, (s.entry u.entry).state.standing = true
  places : s.units.length ≤ Config.unitPlaces
  runs : ∀ i, RunSound (s.unitsOf i) (s.entry i).txSeq
  onLine : ∀ u ∈ s.units, u.inFlight = true → s.carryOnLine
  parked : s.running = false → s.line.buffer = none

theorem unitsSound_iff (s : State) : UnitsSound s ↔ UnitsKept s where
  mp h := ⟨h.owner, h.places, fun i => ⟨h.sequence i, h.oldest i⟩, fun u hu hm => h.onLine ⟨u, hu, hm⟩, h.parked⟩
  mpr h := ⟨h.owner, h.places, fun i => (h.runs i).sequence, fun i => (h.runs i).oldest,
    fun ⟨u, hu, hm⟩ => h.onLine u hu hm, h.parked⟩

/-- An entry that stands keeps on standing with its tx sequence. -/
def Entry.RunsOn (e f : Entry) : Prop := e.state.standing = true → f.state.standing = true ∧ f.txSeq = e.txSeq

theorem Entry.RunsOn.refl (e : Entry) : e.RunsOn e := fun h => ⟨h, rfl⟩

theorem State.unitsOf_nil {s : State} (h : UnitsKept s) (i : Index) (hi : ¬ (s.entry i).state.standing = true) :
    s.unitsOf i = [] := by
  refine List.filter_eq_nil_iff.2 fun u hu he => hi ?_
  rw [← beq_iff_eq.1 he]
  exact h.owner u hu

/-- Units of standing entries, changed as `g` says, with the entries running on. -/
theorem UnitsKept.of_units {s t : State} (h : UnitsKept s) (hent : ∀ i, (s.entry i).RunsOn (t.entry i))
    (howner : ∀ u ∈ t.units, ∃ v ∈ s.units, v.entry = u.entry) (hplaces : t.units.length ≤ s.units.length)
    (hruns : ∀ i, t.unitsOf i = [] ∨ RunSound (t.unitsOf i) (s.entry i).txSeq)
    (honLine : ∀ u ∈ t.units, u.inFlight = true → t.carryOnLine)
    (hparked : t.running = false → t.line.buffer = none) : UnitsKept t where
  owner u hu := by
    obtain ⟨v, hv, he⟩ := howner u hu
    rw [← he]
    exact (hent _ (h.owner v hv)).1
  places := hplaces.trans h.places
  runs i := by
    rcases hruns i with hi | hi
    · rw [hi]; exact .nil _
    · by_cases hs : (s.entry i).state.standing = true
      · rw [(hent i hs).2]; exact hi
      · have hnil : t.unitsOf i = [] := by
          refine List.filter_eq_nil_iff.2 fun u hu he => hs ?_
          obtain ⟨v, hv, hve⟩ := howner u hu
          rw [← beq_iff_eq.1 he, ← hve]
          exact h.owner v hv
        rw [hnil]; exact .nil _
  onLine := honLine
  parked := hparked

/-- The same units. -/
theorem UnitsKept.of_same {s t : State} (h : UnitsKept s) (hu : t.units = s.units)
    (hent : ∀ i, (s.entry i).RunsOn (t.entry i)) (honLine : s.carryOnLine → t.carryOnLine)
    (hparked : t.running = false → t.line.buffer = none) : UnitsKept t := by
  have hof : ∀ i, t.unitsOf i = s.unitsOf i := fun i => by simp only [State.unitsOf, hu]
  refine h.of_units hent (fun u hm => ⟨u, hu ▸ hm, rfl⟩) (Nat.le_of_eq (by rw [hu])) (fun i => .inr ?_)
    (fun u hm hf => honLine (h.onLine u (hu ▸ hm) hf)) hparked
  rw [hof]
  exact h.runs i

theorem State.RunsOn.of_table {s t : State} (h : t.table = s.table) : ∀ i, (s.entry i).RunsOn (t.entry i) := fun i => by
  rw [show t.entry i = s.entry i by simp only [State.entry, h]]
  exact .refl _

theorem State.RunsOn.of_set {s t : State} (i : Index) {e : Entry} (h : t.table = s.table.set i e)
    (he : (s.entry i).RunsOn e) : ∀ j, (s.entry j).RunsOn (t.entry j) := fun j => by
  rw [entry_of_table_set s t i j e h]
  split
  · next hij => subst hij; exact he
  · exact .refl _

/-- The units, the line's frame and the power state stand. -/
theorem UnitsKept.of_entries {s t : State} (h : UnitsKept s) (hent : ∀ i, (s.entry i).RunsOn (t.entry i))
    (hu : t.units = s.units) (hb : t.line.buffer = s.line.buffer) (hp : t.supply.power = s.supply.power) :
    UnitsKept t := by
  refine h.of_same hu hent (fun ⟨f, c, hf, hc⟩ => ⟨f, c, hb.trans hf, hc⟩) fun hr => ?_
  rw [hb]
  exact h.parked (by simpa only [State.running, hp] using hr)

theorem UnitsKept.of_table {s t : State} (h : UnitsKept s) (ht : t.table = s.table) (hu : t.units = s.units)
    (hb : t.line.buffer = s.line.buffer) (hp : t.supply.power = s.supply.power) : UnitsKept t :=
  h.of_entries (State.RunsOn.of_table ht) hu hb hp

theorem UnitsKept.of_set {s t : State} (h : UnitsKept s) (i : Index) {e : Entry} (ht : t.table = s.table.set i e)
    (he : (s.entry i).RunsOn e) (hu : t.units = s.units) (hb : t.line.buffer = s.line.buffer)
    (hp : t.supply.power = s.supply.power) : UnitsKept t := h.of_entries (State.RunsOn.of_set i ht he) hu hb hp

/-- With no CARRY in the buffer, no unit is marked (R141). -/
theorem UnitsKept.unmarked_of {s : State} (h : UnitsKept s) (hc : ¬ s.carryOnLine) : ∀ u ∈ s.units, u.inFlight = false :=
  fun u hu => Bool.eq_false_iff.2 fun hm => hc (h.onLine u hu hm)

/-- With no CARRY in the buffer, any frame may be there. -/
theorem UnitsKept.of_free {s t : State} (h : UnitsKept s) (hc : ¬ s.carryOnLine) (hu : t.units = s.units)
    (hent : ∀ i, (s.entry i).RunsOn (t.entry i)) (hparked : t.running = false → t.line.buffer = none) : UnitsKept t :=
  h.of_same hu hent (fun hs => absurd hs hc) hparked

theorem State.not_carryOnLine_of_none {s : State} (h : s.line.buffer = none) : ¬ s.carryOnLine := by
  rintro ⟨f, c, hf, -⟩
  rw [h] at hf
  cases hf

theorem State.not_carryOnLine_of_body {s : State} {f : TxFrame} (hb : s.line.buffer = some f)
    (h : ∀ c, f.frame.body ≠ .carry c) : ¬ s.carryOnLine := by
  rintro ⟨g, c, hg, hc⟩
  rw [hb] at hg
  cases hg
  exact h c hc

/-- Every mark is cleared (R147, R149). -/
theorem UnitsKept.unmarked {s t : State} (h : UnitsKept s)
    (hu : t.units = s.units.map fun u => { u with inFlight := false }) (ht : t.table = s.table)
    (hparked : t.running = false → t.line.buffer = none) : UnitsKept t := by
  refine h.of_units (State.RunsOn.of_table ht) (fun u hm => ?_) (by rw [hu, List.length_map]) (fun i => .inr ?_)
    (fun u hm hf => ?_) hparked
  · rw [hu] at hm
    obtain ⟨v, hv, rfl⟩ := List.mem_map.1 hm
    exact ⟨v, hv, rfl⟩
  · have : t.unitsOf i = (s.unitsOf i).map fun u => { u with inFlight := false } := by
      simp only [State.unitsOf, hu, List.filter_map]
      rfl
    rw [this]
    exact (h.runs i).unmarked
  · rw [hu] at hm
    obtain ⟨v, hv, rfl⟩ := List.mem_map.1 hm
    cases hf

/-- The marked units are released (R143). -/
theorem UnitsKept.released {s t : State} (h : UnitsKept s) (hu : t.units = s.units.filter fun u => !u.inFlight)
    (ht : t.table = s.table) (hparked : t.running = false → t.line.buffer = none) : UnitsKept t := by
  refine h.of_units (State.RunsOn.of_table ht) (fun u hm => ⟨u, ?_, rfl⟩) (by rw [hu]; exact List.length_filter_le _ _)
    (fun i => .inr ?_) (fun u hm hf => ?_) hparked
  · rw [hu] at hm
    exact List.mem_of_mem_filter hm
  · have : t.unitsOf i = (s.unitsOf i).filter fun u => !u.inFlight := by
      simp only [State.unitsOf, hu, List.filter_filter, Bool.and_comm]
    rw [this]
    exact (h.runs i).released
  · rw [hu] at hm
    have := (List.mem_filter.1 hm).2
    rw [hf] at this
    cases this

/-- All units of an entry leave the queue (R16). -/
theorem UnitsKept.discarded {s t : State} (h : UnitsKept s) (i : Index) {e : Entry}
    (hu : t.units = s.units.filter fun u => u.entry != i) (ht : t.table = s.table.set i e)
    (honLine : s.carryOnLine → t.carryOnLine) (hparked : t.running = false → t.line.buffer = none) : UnitsKept t := by
  have hent := fun j => entry_of_table_set s t i j e ht
  have hof : ∀ j, t.unitsOf j = if i = j then [] else s.unitsOf j := fun j => by
    simp only [State.unitsOf, hu, List.filter_filter]
    split
    · next hij =>
      subst hij
      exact List.filter_eq_nil_iff.2 fun u _ => by simp [bne]
    · next hij =>
      refine List.filter_congr fun u _ => ?_
      by_cases hj : u.entry = j
      · simp [hj, Ne.symm hij]
      · simp [hj]
  constructor
  · intro u hm
    rw [hu] at hm
    obtain ⟨hm, hne⟩ := List.mem_filter.1 hm
    rw [hent, if_neg (fun e => by rw [← e] at hne; simp at hne)]
    exact h.owner u hm
  · rw [hu]
    exact (List.length_filter_le _ _).trans h.places
  · intro j
    rw [hof, hent]
    split
    · exact .nil _
    · exact h.runs j
  · intro u hm hf
    rw [hu] at hm
    exact honLine (h.onLine u (List.mem_of_mem_filter hm) hf)
  · exact hparked

theorem UnitsKept.yielded {s : State} (h : UnitsKept s) : UnitsKept s.yielded := by
  cases hb : s.line.buffer with
  | none => rw [s.yielded_of_free hb]; exact h
  | some f =>
    by_cases hp : f.phase = .receipt
    · rw [s.yielded_of_receipt hb hp]; exact h
    · rw [s.yielded_of_sent hb hp]
      by_cases hc : ∃ c, f.frame.body = .carry c
      · obtain ⟨c, hc⟩ := hc
        rw [hc]
        exact h.unmarked rfl rfl fun _ => rfl
      · have hfree := State.not_carryOnLine_of_body hb fun c hcc => hc ⟨c, hcc⟩
        refine h.of_free hfree ?_ (State.RunsOn.of_table rfl) fun _ => rfl
        dsimp only
        split
        · next c hcc => exact absurd ⟨c, hcc⟩ hc
        · rfl

theorem Entry.RunsOn.atWake (e : Entry) : e.RunsOn e.atWake := fun h => by
  rw [show e.atWake = _ from if_pos h]
  exact ⟨rfl, rfl⟩

theorem Entry.RunsOn.withAbsent (e : Entry) (d : Nat) : e.RunsOn (e.withAbsent d) := by
  unfold Entry.withAbsent
  split
  · exact .refl e
  · exact .refl e

theorem Entry.RunsOn.unlit (e : Entry) (w : SlotSwitch) (i : Index) : e.RunsOn (e.unlit w i) := by
  unfold Entry.unlit
  split
  · exact fun _ => ⟨rfl, rfl⟩
  · exact .refl e

theorem State.running_of_power {s : State} {p : Power} (h : s.supply.power = p) (hp : p ≠ .run) : s.running = false := by
  simp [State.running, h, hp]

theorem State.dropped_units (s : State) (c : Circuit) (f : CardSlot) (r : DropReason) :
    (s.dropped c f r).units = s.units ∧ (s.dropped c f r).supply = s.supply := by
  rw [State.dropped_rest]
  exact ⟨rfl, rfl⟩

theorem State.rolled_units (s : State) : s.rolled.units = s.units ∧ s.rolled.supply = s.supply := by
  unfold State.rolled
  split <;> exact ⟨rfl, rfl⟩

theorem UnitsKept.checkAsked {s : State} (h : UnitsKept s) (i : Index) : UnitsKept (s.checkAsked i) := by
  rw [State.checkAsked_rest]
  exact h.of_table rfl rfl rfl rfl

theorem UnitsKept.carrySent {s : State} (h : UnitsKept s) (i : Index) (ho : s.Offers) (c : Carry) (dest : Destination) :
    UnitsKept { s.sending (.carry c) dest (some i) with units := markUnits i s.settings.k s.units } := by
  have hfree := h.unmarked_of (State.not_carryOnLine_of_none ho.free)
  have mem : ∀ (k : Nat) (us : List QueuedUnit) u, u ∈ markUnits i k us → ∃ v ∈ us, v.entry = u.entry := by
    intro k us
    induction us generalizing k with
    | nil => cases k <;> exact nofun
    | cons v us ih =>
      intro u hu
      cases k with
      | zero => exact ⟨u, hu, rfl⟩
      | succ k =>
        unfold markUnits at hu
        split at hu
        · rcases List.mem_cons.1 hu with rfl | hu
          · exact ⟨v, List.mem_cons_self, rfl⟩
          · obtain ⟨w, hw, he⟩ := ih k u hu
            exact ⟨w, List.mem_cons_of_mem _ hw, he⟩
        · rcases List.mem_cons.1 hu with rfl | hu
          · exact ⟨u, List.mem_cons_self, rfl⟩
          · obtain ⟨w, hw, he⟩ := ih (k + 1) u hu
            exact ⟨w, List.mem_cons_of_mem _ hw, he⟩
  refine h.of_units (State.RunsOn.of_table rfl) (mem _ s.units) (Nat.le_of_eq (markUnits_length _ _ _)) (fun j => .inr ?_)
    (fun _ _ _ => ⟨_, c, rfl, rfl⟩) fun hr => ?_
  · show RunSound ((markUnits i s.settings.k s.units).filter fun u => u.entry == j) _
    rw [markUnits_filter]
    split
    · exact (h.runs j).marked _ fun u hu => hfree u (List.mem_of_mem_filter hu)
    · exact h.runs j
  · have : s.running = false := hr
    rw [ho.running] at this
    cases this

theorem UnitsKept.submitted {s : State} (h : UnitsKept s) (i : Index) (content : List Byte)
    (hs : (s.entry i).state.standing = true) (hu : s.units.length < Config.unitPlaces) :
    UnitsKept { s.withEntry i { s.entry i with txSeq := (s.entry i).txSeq + 1 } with
      units := s.units ++ [⟨i, (s.entry i).txSeq, content, false⟩] } := by
  have hent := fun j => s.withEntry_entry i j { s.entry i with txSeq := (s.entry i).txSeq + 1 }
  constructor
  · intro u hm
    show ((s.withEntry i _).entry u.entry).state.standing = true
    rw [hent]
    split
    · exact hs
    · next hne =>
      rcases List.mem_append.1 hm with hm | hm
      · exact h.owner u hm
      · rw [List.mem_singleton.1 hm] at hne
        exact absurd rfl hne
  · simpa using hu
  · intro j
    show RunSound ((s.units ++ [_]).filter fun u => u.entry == j) ((s.withEntry i _).entry j).txSeq
    rw [hent, List.filter_append]
    split
    · next hij =>
      subst hij
      simpa [State.unitsOf] using (h.runs i).append ⟨i, (s.entry i).txSeq, content, false⟩ rfl rfl
    · next hij => simpa [hij, State.unitsOf] using h.runs j
  · intro u hm hf
    rcases List.mem_append.1 hm with hm | hm
    · exact h.onLine u hm hf
    · rw [List.mem_singleton.1 hm] at hf
      cases hf
  · exact h.parked

theorem UnitsKept.move {s t : State} (m : Move s t) (h : UnitsKept s) : UnitsKept t := by
  cases m with
  | waited u hu =>
    have hb := h.parked (s.running_of_power rfl hu.before)
    exact h.of_free (State.not_carryOnLine_of_none hb) rfl (State.RunsOn.of_table rfl) fun _ => hb
  | held drive retention hr hd => exact h.unmarked rfl rfl fun _ => rfl
  | wokenActive t outbound hp hr ha ht =>
    have hb := h.parked (s.running_of_power hp nofun)
    refine h.of_free (State.not_carryOnLine_of_none hb) rfl (fun i => ?_) fun _ => rfl
    have := Entry.RunsOn.atWake (s.entry i)
    simpa [State.entry] using this
  | wokenConfig t outbound hp hr ha ht =>
    have hb := h.parked (s.running_of_power hp nofun)
    exact h.of_free (State.not_carryOnLine_of_none hb) rfl (State.RunsOn.of_table rfl) fun _ => rfl
  | itemSent body dest ho hl =>
    exact h.of_free (State.not_carryOnLine_of_none ho.free) rfl (State.RunsOn.of_table rfl) fun hr => by
      have : s.running = false := hr
      rw [ho.running] at this
      cases this
  | bidSent i figure ho hs hr hn =>
    exact h.of_free (State.not_carryOnLine_of_none ho.free) rfl (State.RunsOn.of_table rfl) fun hr => by
      have : s.running = false := hr
      rw [ho.running] at this
      cases this
  | carrySent i ho hs hu => exact h.carrySent i ho _ _
  | yielded => exact h.yielded
  | readLow => exact h.of_table rfl rfl (s.line.readBit_buffer false) rfl
  | wentOn =>
    refine h.of_same rfl (State.RunsOn.of_table rfl) (fun ⟨f, c, hf, hc⟩ => ?_) fun hr => ?_
    · show ∃ g d, s.line.goOn.buffer = some g ∧ g.frame.body = .carry d
      unfold ShelfLine.goOn
      rw [hf]
      dsimp only
      split
      · exact ⟨_, c, rfl, hc⟩
      · exact ⟨_, c, rfl, hc⟩
      · exact ⟨_, c, hf, hc⟩
    · show s.line.goOn.buffer = none
      unfold ShelfLine.goOn
      rw [h.parked hr]
      exact h.parked hr
  | sendEnded o f hb hf =>
    exact h.of_free (State.not_carryOnLine_of_body hb hf) rfl (State.RunsOn.of_table rfl) fun _ => rfl
  | carryEnded o f hb =>
    by_cases ho : o = .taken
    · exact h.released (if_pos ho) rfl fun _ => rfl
    · exact h.unmarked (if_neg ho) rfl fun _ => rfl
  | rolled ha => exact h.of_table s.rolled_table s.rolled_units.1 (by rw [s.rolled_same.2]) (by rw [s.rolled_units.2])
  | dropped c f r hd =>
    obtain ⟨hunits, hsupply⟩ := s.dropped_units c f r
    exact h.of_table (s.dropped_table c f r) hunits (by rw [(s.dropped_same c f r).2]) (by rw [hsupply])
  | recounted i e he =>
    refine h.of_set i rfl (fun hs => ⟨?_, ?_⟩) rfl rfl rfl
    · rw [he.rest]; exact hs
    · rw [he.rest]
  | returned i misses hs hm => exact h.of_set i rfl (fun _ => ⟨rfl, rfl⟩) rfl rfl rfl
  | deferred i misses tick hs hr hm => exact h.of_set i rfl (fun _ => ⟨rfl, rfl⟩) rfl rfl rfl
  | bidTaken o f b i tick hb hf hs hr =>
    refine h.of_free (State.not_carryOnLine_of_body hb (by rw [hf]; nofun)) rfl
      (State.RunsOn.of_set i rfl fun _ => ⟨rfl, rfl⟩) fun _ => rfl
  | checking i hs hr ha hpres =>
    refine UnitsKept.checkAsked ?_ i
    exact h.of_set i rfl (fun _ => ⟨rfl, rfl⟩) rfl rfl rfl
  | submitted i content hs hu hc => exact h.submitted i content hs hu
  | gathered absent settle hc =>
    refine h.of_entries (fun i => ?_) rfl rfl rfl
    have := Entry.RunsOn.withAbsent (s.entry i) absent
    simpa [State.entry] using this
  | _ => exact h.of_table rfl rfl rfl rfl

theorem UnitsKept.joinedAs {s : State} (h : UnitsKept s) (i : Index) (st : EntryState) (late : Bool)
    (hst : st = .joining ∨ st = .parked) : UnitsKept (s.joinedAs i st late) := by
  refine h.of_set i rfl (fun _ => ⟨?_, rfl⟩) rfl rfl rfl
  rcases hst with rfl | rfl <;> rfl

theorem UnitsKept.shift {s t : State} (f : Shift s t) (h : UnitsKept s) : UnitsKept t := by
  cases f with
  | failed i reason far hs => exact h.discarded i rfl rfl id h.parked
  | connected k c hc hs => exact h.of_set c.index rfl (fun _ => ⟨rfl, rfl⟩) rfl rfl rfl
  | freed k c hc hs => exact h.of_table rfl rfl rfl rfl
  | joined i st late hs hr hst hp => exact (h.joinedAs i st late hst).checkAsked i
  | joinedLost i late hs hr hl => exact h.joinedAs i .parked late (.inr rfl)
  | parked i hs hl => exact h.of_set i rfl (fun _ => ⟨rfl, rfl⟩) rfl rfl rfl
  | highwayLost hr =>
    refine h.of_entries (fun i => ?_) rfl rfl rfl
    have := Entry.RunsOn.unlit (s.entry i) s.switch i
    simpa [State.entry] using this
  | timedOut tick ht => exact h.of_table rfl rfl rfl rfl

theorem UnitsKept.stable : Stable UnitsKept UnitsKept :=
  .same UnitsKept.move UnitsKept.shift fun _ h => h.of_table rfl rfl rfl rfl

theorem UnitsKept.placedAs {s : State} (h : UnitsKept s) (i : Index) (e : Entry) (hs : (s.entry i).state = .empty) :
    UnitsKept (s.withEntry i e) :=
  h.of_set i rfl (fun hst => by rw [hs] at hst; cases hst) rfl rfl rfl

theorem State.lineWithout_carry (s : State) (i : Index) (h : s.carryOnLine) :
    ∃ g d, (s.lineWithout i).buffer = some g ∧ g.frame.body = .carry d := by
  obtain ⟨f, c, hf, hc⟩ := h
  refine ⟨{ f with entry := if f.entry = some i then none else f.entry }, c, ?_, hc⟩
  simp only [State.lineWithout, hf, Option.map_some]

theorem State.lineWithout_none (s : State) (i : Index) (h : s.line.buffer = none) : (s.lineWithout i).buffer = none := by
  simp only [State.lineWithout, h, Option.map_none]

theorem UnitsKept.invariant : Invariant UnitsKept where
  effects := UnitsKept.stable.effects
  placed {s t} p h := by
    cases p with
    | unlit i e hf hc hl => exact h.placedAs i e hf.empty
    | asked i e hf hc hp => exact (h.placedAs i e hf.empty).checkAsked i
    | relinking i e hf hc => exact h.placedAs i _ hf.empty
  emptied {i s t} e h := by
    cases e with
    | failed hs => exact h.discarded i rfl rfl (s.lineWithout_carry i) fun hr => s.lineWithout_none i (h.parked hr)
    | standing hs =>
      refine UnitsKept.stable.settle ?_
      exact h.discarded i rfl rfl (s.lineWithout_carry i) fun hr => s.lineWithout_none i (h.parked hr)
  anew s straps power mainOsc window retention :=
    ⟨nofun, Nat.zero_le _, fun _ => .nil _, nofun, fun _ => rfl⟩
  queue _ h := h.of_table rfl rfl rfl rfl

/-- Settles O59: units join at the tail, leave from the head or with their entry, and are marked from the head. -/
theorem stepsKeepUnitOrder : Obligations.StepsKeepUnitOrder := fun _ t hs h =>
  (unitsSound_iff t).2 (UnitsKept.invariant.step ((unitsSound_iff _).1 hs) h)

end Sys2Proof.Machine

/-! The part composes well-formed frames of its own card slot, and drives nothing while SILENCED (O60). -/

namespace Sys2Proof.Machine

/-! ### The rule, by block -/

/-- The rule of the line: what is in the transmit buffer and completed last, and what is driven (R54, R56, R60, R68, R71). -/
structure ShelfLine.Composed (l : ShelfLine) (slot : CardSlot) (running : Bool) : Prop where
  buffer : ∀ f, l.buffer = some f → f.frame.wf = true ∧ f.frame.source = slot
  completed : ∀ f, l.completed = some f → f.wf = true ∧ f.source = slot
  driven : l.drive = .frame ↔ ∃ f, l.buffer = some f ∧ f.phase ≠ .receipt
  aborted : running = true → l.drive ≠ .abort
  parked : running = false → l.buffer = none
  silent : l.silenced = true → l.drive = .released ∧ l.receipt = none

/-- The rule of an entry: what a BID or an ANSWER is composed from (R91, R98, R101). -/
structure Entry.Composable (e : Entry) : Prop where
  circuit : e.state ≠ .empty → e.circuit ≠ 0
  attempts : e.attempt ≤ Config.missLimit ∧ e.misses ≤ Config.missLimit
  bids : e.state = .pending → e.role = .origin → e.misses < Config.missLimit
  bidding : e.state = .bidding → e.role = .origin
  checks : e.state = .checking → 1 ≤ e.attempt

def AnswerItem.Composable (a : AnswerItem) : Prop := a.circuit ≠ 0 ∧ 1 ≤ a.attempt ∧ a.attempt ≤ Config.missLimit

def QueuedUnit.Composable (u : QueuedUnit) : Prop := 1 ≤ u.content.length ∧ u.content.length ≤ 8

/-- `FramesSound`, by the block that each rule is about. -/
structure FramesKept (s : State) : Prop where
  line : s.line.Composed s.cardSlot s.running
  entries : ∀ i, (s.entry i).Composable
  answers : ∀ a ∈ s.relink.answers, a.Composable
  drops : ∀ d ∈ s.relink.drops, d.circuit ≠ 0
  units : ∀ u ∈ s.units, u.Composable
  pack : 1 ≤ s.settings.k ∧ s.settings.k ≤ 4

theorem framesSound_iff (s : State) : FramesSound s ↔ FramesKept s where
  mp h := {
    line := ⟨h.buffer, h.completed, h.driven, h.aborted, h.parked, h.silent⟩
    entries := fun i => ⟨h.circuits i, h.attempts i, h.bids i, h.bidding i, h.checks i⟩
    answers := h.answers
    drops := h.drops
    units := h.units
    pack := h.pack }
  mpr h := {
    buffer := h.line.buffer
    completed := h.line.completed
    circuits := fun i => (h.entries i).circuit
    attempts := fun i => (h.entries i).attempts
    bids := fun i => (h.entries i).bids
    bidding := fun i => (h.entries i).bidding
    checks := fun i => (h.entries i).checks
    answers := h.answers
    drops := h.drops
    units := h.units
    pack := h.pack
    driven := h.line.driven
    aborted := h.line.aborted
    parked := h.line.parked
    silent := h.line.silent }

/-! ### The line -/

/-- A line whose buffer, drive and completed frame stand, and which drives no receipt that it did not. -/
theorem ShelfLine.Composed.of_same {l m : ShelfLine} {slot : CardSlot} {running : Bool} (h : l.Composed slot running)
    (hb : m.buffer = l.buffer) (hc : m.completed = l.completed ∨ m.completed = none) (hd : m.drive = l.drive)
    (hs : m.silenced = true → l.silenced = true ∧ (m.receipt = l.receipt ∨ m.receipt = none)) :
    m.Composed slot running where
  buffer f hf := h.buffer f (hb ▸ hf)
  completed f hf := by
    rcases hc with hc | hc
    · exact h.completed f (hc ▸ hf)
    · rw [hc] at hf; cases hf
  driven := by rw [hd, hb]; exact h.driven
  aborted hr := by rw [hd]; exact h.aborted hr
  parked hr := by rw [hb]; exact h.parked hr
  silent hm := by
    obtain ⟨hl, hrec⟩ := hs hm
    obtain ⟨hdrive, hreceipt⟩ := h.silent hl
    refine ⟨hd.trans hdrive, ?_⟩
    rcases hrec with hrec | hrec
    · rw [hrec]; exact hreceipt
    · exact hrec

/-- A line with an empty buffer and nothing driven. -/
theorem ShelfLine.Composed.of_free {m : ShelfLine} {slot : CardSlot} {running : Bool} (hb : m.buffer = none)
    (hc : ∀ f, m.completed = some f → f.wf = true ∧ f.source = slot) (hd : m.drive = .released)
    (hs : m.silenced = true → m.receipt = none) : m.Composed slot running where
  buffer f hf := by rw [hb] at hf; cases hf
  completed := hc
  driven := by rw [hd, hb]; exact ⟨nofun, fun ⟨_, h, _⟩ => by cases h⟩
  aborted _ := by rw [hd]; nofun
  parked _ := hb
  silent hm := ⟨hd, hs hm⟩

/-- A well-formed frame of this card's own slot goes on the line in RUN, and it is not SILENCED (R65, R68, R70). -/
theorem ShelfLine.Composed.of_sent {l m : ShelfLine} {slot : CardSlot} {running : Bool} (h : l.Composed slot running)
    {f : TxFrame} (hf : m.buffer = some f) (hwf : f.frame.wf = true ∧ f.frame.source = slot) (hp : f.phase ≠ .receipt)
    (hd : m.drive = .frame) (hc : m.completed = l.completed) (hr : running = true) (hs : m.silenced = false) :
    m.Composed slot running where
  buffer g hg := by
    rw [hf] at hg
    cases hg
    exact hwf
  completed g hg := h.completed g (hc ▸ hg)
  driven := by rw [hd, hf]; exact ⟨fun _ => ⟨f, rfl, hp⟩, fun _ => rfl⟩
  aborted _ := by rw [hd]; nofun
  parked hr' := by rw [hr] at hr'; cases hr'
  silent hm := by rw [hs] at hm; cases hm

theorem ShelfLine.readBit_rest (l : ShelfLine) (bit : Bool) : (l.readBit bit).buffer = l.buffer
    ∧ (l.readBit bit).completed = l.completed ∧ (l.readBit bit).drive = l.drive ∧ (l.readBit bit).receipt = l.receipt := by
  unfold ShelfLine.readBit
  rw [ShelfLine.countBit_eq]
  dsimp only
  split <;> exact ⟨rfl, rfl, rfl, rfl⟩

theorem ShelfLine.Composed.goOn {l : ShelfLine} {slot : CardSlot} {running : Bool} (h : l.Composed slot running) :
    l.goOn.Composed slot running := by
  have free : ∀ f, l.buffer = some f → f.phase ≠ .receipt → l.silenced = true → False := fun f hf hp hs => by
    have := h.driven.2 ⟨f, hf, hp⟩
    rw [(h.silent hs).1] at this
    cases this
  have inRun : ∀ f, l.buffer = some f → running = false → False := fun f hf hr => by
    rw [h.parked hr] at hf
    cases hf
  unfold ShelfLine.goOn
  split
  · exact h
  · next f hf =>
    split
    · next hp =>
      have hne : f.phase ≠ .receipt := by rw [hp]; nofun
      exact {
        buffer := fun g hg => by cases hg; exact h.buffer f hf
        completed := h.completed
        driven := ⟨fun _ => ⟨_, rfl, nofun⟩, fun _ => h.driven.2 ⟨f, hf, hne⟩⟩
        aborted := h.aborted
        parked := fun hr => (inRun f hf hr).elim
        silent := fun hs => (free f hf hne hs).elim }
    · next hp =>
      have hne : f.phase ≠ .receipt := by rw [hp]; nofun
      exact {
        buffer := fun g hg => by cases hg; exact h.buffer f hf
        completed := h.completed
        driven := ⟨nofun, fun ⟨g, hg, hgp⟩ => by cases hg; exact absurd rfl hgp⟩
        aborted := fun _ => nofun
        parked := fun hr => (inRun f hf hr).elim
        silent := fun hs => (free f hf hne hs).elim }
    · exact h

theorem State.sendEnded_composed {s : State} (h : s.line.Composed s.cardSlot s.running) (o : SendOutcome) :
    (s.sendEnded o).line.Composed s.cardSlot s.running := by
  refine .of_free rfl (fun f hf => ?_) rfl fun hs => ?_
  · have hf : (if SendOutcome.completes o then s.line.buffer.map TxFrame.frame else s.line.completed) = some f := hf
    split at hf
    · obtain ⟨g, hg, rfl⟩ := Option.map_eq_some_iff.1 hf
      exact h.buffer g hg
    · exact h.completed f hf
  · show (if SendOutcome.completes o then none else s.line.receipt) = none
    split
    · rfl
    · exact (h.silent hs).2

theorem State.lineWithout_composed {s : State} (h : s.line.Composed s.cardSlot s.running) (i : Index) :
    (s.lineWithout i).Composed s.cardSlot s.running where
  buffer f hf := by
    obtain ⟨g, hg, hframe⟩ := s.lineWithout_frame i f hf
    rw [← hframe]
    exact h.buffer g hg
  completed := h.completed
  driven := by
    refine h.driven.trans ⟨fun ⟨f, hf, hp⟩ => ?_, fun ⟨f, hf, hp⟩ => ?_⟩
    · exact ⟨{ f with entry := if f.entry = some i then none else f.entry }, by simp only [State.lineWithout, hf, Option.map_some], hp⟩
    · obtain ⟨g, hg, rfl⟩ := Option.map_eq_some_iff.1 hf
      exact ⟨g, hg, hp⟩
  aborted := h.aborted
  parked hr := s.lineWithout_none i (h.parked hr)
  silent := h.silent

/-! ### Frames composed -/

theorem Frame.wf_card (source far : CardSlot) (body : FrameBody) (hr : ∀ r, body ≠ .roll r) (hb : body.wf = true) :
    Frame.wf ⟨source, .card far, body⟩ = true := by
  unfold Frame.wf Frame.destWf
  rw [hb]
  cases body with
  | roll r => exact absurd rfl (hr r)
  | bid b => rfl
  | answer a => rfl
  | drop d => rfl
  | carry c => rfl

theorem circuitWf_of {c : Circuit} (h : c ≠ 0) : circuitWf c = true := by simpa [circuitWf] using h

theorem attemptWf_of {n : Nat} (h1 : 1 ≤ n) (h3 : n ≤ Config.missLimit) : attemptWf n = true := by
  simp only [attemptWf, Bool.and_eq_true, decide_eq_true_eq]
  exact ⟨h1, h3⟩

/-- A frame composed from an item of a list is well formed (R57, R83, R104, R113). -/
theorem FramesKept.lists_wf {s : State} (h : FramesKept s) {body : FrameBody} {dest : Destination}
    (hl : s.lists body dest) (source : CardSlot) : Frame.wf ⟨source, dest, body⟩ = true := by
  rcases hl with ⟨a, ha, rfl, rfl⟩ | ⟨r, rfl, rfl⟩ | ⟨d, hd, rfl, rfl⟩
  · obtain ⟨hc, h1, h3⟩ := h.answers a ha
    exact Frame.wf_card _ _ _ nofun (by simp only [FrameBody.wf, Answer.wf, attemptWf_of h1 h3, circuitWf_of hc]; rfl)
  · rfl
  · exact Frame.wf_card _ _ _ nofun (circuitWf_of (h.drops d hd))

theorem FramesKept.packed_wf {s : State} (h : FramesKept s) (i : Index) (hu : ∃ u ∈ s.units, u.entry = i) :
    1 ≤ (s.packed i).length ∧ (s.packed i).length ≤ 4 ∧ (s.packed i).all SignalUnit.wf = true := by
  obtain ⟨hk1, hk4⟩ := h.pack
  have hlen : (s.packed i).length = min s.settings.k (s.unitsOf i).length := by
    simp [State.packed, State.unitsOf]
  have hpos : 0 < (s.unitsOf i).length := by
    obtain ⟨u, hu, he⟩ := hu
    exact List.length_pos_of_mem (List.mem_filter.2 ⟨hu, by simp [he]⟩)
  refine ⟨by rw [hlen]; omega, by rw [hlen]; omega, List.all_eq_true.2 fun x hx => ?_⟩
  obtain ⟨u, hu, rfl⟩ := List.mem_map.1 hx
  have hmem : u ∈ s.units := List.mem_of_mem_filter (List.mem_of_mem_take hu)
  obtain ⟨h1, h8⟩ := h.units u hmem
  simp [SignalUnit.wf, h1, h8]

/-- The BID on the line has an attempt of 1..3 (R57). -/
theorem FramesKept.bid_attempt {s : State} (h : FramesKept s) {f : TxFrame} {b : Bid} (hb : s.line.buffer = some f)
    (hf : f.frame.body = .bid b) : 1 ≤ b.attempt ∧ b.attempt ≤ Config.missLimit := by
  have hwf := (h.line.buffer f hb).1
  simp only [Frame.wf, Bool.and_eq_true, hf] at hwf
  exact ((Bid.wf_iff b).1 hwf.2).1

/-! ### Entries -/

/-- An entry in none of the states that a BID or an ANSWER is composed in. -/
theorem Entry.Composable.of_quiet {e f : Entry} (h : e.Composable) (hne : e.state ≠ .empty)
    (hc : f.circuit = e.circuit) (ha : f.attempt = e.attempt) (hm : f.misses ≤ Config.missLimit)
    (hs : f.state ≠ .pending ∧ f.state ≠ .bidding ∧ f.state ≠ .checking) : f.Composable where
  circuit _ := by rw [hc]; exact h.circuit hne
  attempts := ⟨by rw [ha]; exact h.attempts.1, hm⟩
  bids hp := absurd hp hs.1
  bidding hb := absurd hb hs.2.1
  checks hb := absurd hb hs.2.2

theorem Entry.Composable.pending {e f : Entry} (h : e.Composable) (hne : e.state ≠ .empty)
    (hc : f.circuit = e.circuit) (ha : f.attempt ≤ Config.missLimit) (hm : f.misses < Config.missLimit)
    (hs : f.state = .pending) : f.Composable where
  circuit _ := by rw [hc]; exact h.circuit hne
  attempts := ⟨ha, Nat.le_of_lt hm⟩
  bids _ _ := hm
  bidding hb := by rw [hs] at hb; cases hb
  checks hb := by rw [hs] at hb; cases hb

theorem FramesKept.recounted {s : State} (h : FramesKept s) {i : Index} {e : Entry} (he : s.Recounts (s.entry i) e) :
    e.Composable := by
  have hi := h.entries i
  have hst : e.state = (s.entry i).state := by rw [he.rest]
  have hrole : e.role = (s.entry i).role := by rw [he.rest]
  have hcirc : e.circuit = (s.entry i).circuit := by rw [he.rest]
  have hatt : e.attempt ≤ Config.missLimit ∧ (e.attempt = (s.entry i).attempt ∨ 1 ≤ e.attempt) := by
    rcases he.attempt with ha | ha | ⟨x, b, hx, hb, ha⟩
    · exact ⟨by rw [ha]; exact hi.attempts.1, .inl ha⟩
    · exact ⟨ha.2, .inr ha.1⟩
    · have := h.bid_attempt hx hb
      rw [ha]
      exact ⟨this.2, .inr this.1⟩
  refine ⟨fun hne => ?_, ⟨hatt.1, ?_⟩, fun hp hr => ?_, fun hb => ?_, fun hb => ?_⟩
  · rw [hcirc]; exact hi.circuit (by rw [← hst]; exact hne)
  · rcases he.misses with hm | hm
    · rw [hm]; exact hi.attempts.2
    · exact Nat.le_of_lt hm
  · rcases he.misses with hm | hm
    · rw [hm]; exact hi.bids (by rw [← hst]; exact hp) (by rw [← hrole]; exact hr)
    · exact hm
  · rw [hrole]; exact hi.bidding (by rw [← hst]; exact hb)
  · rcases hatt.2 with ha | ha
    · rw [ha]; exact hi.checks (by rw [← hst]; exact hb)
    · exact ha

theorem Entry.Composable.atWake {e : Entry} (h : e.Composable) : e.atWake.Composable := by
  unfold Entry.atWake
  split
  · next hs => exact h.pending ((EntryState.standing_iff _).1 hs).1 rfl (Nat.zero_le _) (show 0 < Config.missLimit by decide) rfl
  · exact h

theorem Entry.Composable.withAbsent {e : Entry} (h : e.Composable) (d : Nat) : (e.withAbsent d).Composable := by
  unfold Entry.withAbsent
  split
  · exact ⟨h.circuit, h.attempts, h.bids, h.bidding, h.checks⟩
  · exact h

theorem Entry.Composable.unlit {e : Entry} (h : e.Composable) (w : SlotSwitch) (i : Index) : (e.unlit w i).Composable := by
  unfold Entry.unlit
  split
  · next hs =>
    refine h.of_quiet ?_ rfl rfl h.attempts.2 ⟨nofun, nofun, nofun⟩
    rcases hs with hs | ⟨-, hs | hs⟩ <;> (rw [hs]; nofun)
  · exact h

theorem FramesKept.answerable {s : State} (h : FramesKept s) {a : AnswerItem} (ha : s.answerable a) : a.Composable := by
  rcases ha with ha | ⟨i, verdict, hs, rfl⟩
  · exact ha
  · have hi := h.entries i
    exact ⟨hi.circuit (by rw [hs]; nofun), hi.checks hs, hi.attempts.1⟩

/-! ### The state -/

theorem FramesKept.withEntry {s : State} (h : FramesKept s) (i : Index) {e : Entry} (he : e.Composable) :
    FramesKept (s.withEntry i e) := by
  refine { h with entries := fun j => ?_ }
  rw [State.withEntry_entry]
  split
  · exact he
  · exact h.entries j

theorem CardPort.latching_k {p : CardPort} (h : 1 ≤ p.settings.k ∧ p.settings.k ≤ 4) (v : LatchItems) :
    1 ≤ (p.latching v).settings.k ∧ (p.latching v).settings.k ≤ 4 := by
  rw [CardPort.latching_settings]
  exact h

theorem FramesKept.checkAsked {s : State} (h : FramesKept s) (i : Index) : FramesKept (s.checkAsked i) := by
  rw [State.checkAsked_rest]
  exact { h with }

theorem FramesKept.dropped {s : State} (h : FramesKept s) (c : Circuit) (f : CardSlot) (r : DropReason) (hc : c ≠ 0) :
    FramesKept (s.dropped c f r) := by
  obtain ⟨ns, hns⟩ := s.dropped_port c f r
  rw [State.dropped_rest, hns]
  refine { h with drops := fun d hd => ?_, pack := h.pack }
  rcases s.dropped_drops c f r with hl | ⟨-, hl⟩
  · exact h.drops d (hl ▸ hd)
  · have hd : d ∈ (s.dropped c f r).relink.drops := hd
    rw [hl] at hd
    rcases List.mem_append.1 hd with hd | hd
    · exact h.drops d hd
    · rw [List.mem_singleton.1 hd]; exact hc

theorem FramesKept.rolled {s : State} (h : FramesKept s) : FramesKept s.rolled := by
  unfold State.rolled
  split
  · exact { h with }
  · exact { h with }
  · exact h

theorem FramesKept.pendingAs {s : State} (h : FramesKept s) (i : Index) (misses : Nat)
    (hs : (s.entry i).state.standing = true) (hm : misses < Config.missLimit) : FramesKept (s.pendingAs i misses) := by
  have hent := h.withEntry i (e := { s.entry i with
    state := .pending, late := false, noReceipt := 0, busy := 0, misses := misses
    deadline := if (s.entry i).role = .far ∧ s.relink.campaign ≠ .gather then some (s.now + s.settings.p) else none })
    ((h.entries i).pending ((EntryState.standing_iff _).1 hs).1 rfl (h.entries i).attempts.1 hm rfl)
  have hrelink : ∀ r : RelinkEngine, r = (if s.relink.campaign = .steady then s.begunForEntry else s.relink) →
      r.answers = s.relink.answers ∧ r.drops = s.relink.drops := by
    rintro _ rfl
    split <;> exact ⟨rfl, rfl⟩
  have hport : CardPort.settings (if s.relink.campaign = .steady then
      s.port.posted [⟨.campaignBegun, BitVec.ofNat 8 i.val, 4, 0⟩] else s.port) = s.settings := by
    split <;> rfl
  obtain ⟨hans, hdrops⟩ := hrelink _ rfl
  exact { hent with
    answers := fun a ha => h.answers a (hans ▸ ha)
    drops := fun d hd => h.drops d (hdrops ▸ hd)
    pack := by
      show 1 ≤ (CardPort.settings (if _ then _ else _)).k ∧ (CardPort.settings (if _ then _ else _)).k ≤ 4
      rw [hport]
      exact h.pack }

/-- Units that were there, be they marked or not. -/
theorem FramesKept.requeued {s : State} (h : FramesKept s) {us : List QueuedUnit}
    (hu : ∀ u ∈ us, ∃ v ∈ s.units, v.content = u.content) : ∀ u ∈ us, u.Composable := fun u hm => by
  obtain ⟨v, hv, he⟩ := hu u hm
  unfold QueuedUnit.Composable
  rw [← he]
  exact h.units v hv

theorem unmarked_content (us : List QueuedUnit) :
    ∀ u ∈ us.map (fun u => { u with inFlight := false }), ∃ v ∈ us, v.content = u.content := fun u hu => by
  obtain ⟨v, hv, rfl⟩ := List.mem_map.1 hu
  exact ⟨v, hv, rfl⟩

theorem filtered_content (us : List QueuedUnit) (p : QueuedUnit → Bool) :
    ∀ u ∈ us.filter p, ∃ v ∈ us, v.content = u.content := fun u hu => ⟨u, List.mem_of_mem_filter hu, rfl⟩

theorem markUnits_content (i : Index) (k : Nat) (us : List QueuedUnit) :
    ∀ u ∈ markUnits i k us, ∃ v ∈ us, v.content = u.content := by
  induction us generalizing k with
  | nil => cases k <;> exact nofun
  | cons v us ih =>
    intro u hu
    cases k with
    | zero => exact ⟨u, hu, rfl⟩
    | succ k =>
      have tail : ∀ k, u ∈ markUnits i k us → ∃ w ∈ v :: us, w.content = u.content := fun k hu => by
        obtain ⟨w, hw, he⟩ := ih k u hu
        exact ⟨w, List.mem_cons_of_mem _ hw, he⟩
      unfold markUnits at hu
      split at hu
      · rcases List.mem_cons.1 hu with rfl | hu
        · exact ⟨v, List.mem_cons_self, rfl⟩
        · exact tail k hu
      · rcases List.mem_cons.1 hu with rfl | hu
        · exact ⟨u, List.mem_cons_self, rfl⟩
        · exact tail (k + 1) hu

theorem FramesKept.yielded {s : State} (h : FramesKept s) : FramesKept s.yielded := by
  cases hb : s.line.buffer with
  | none => rw [s.yielded_of_free hb]; exact h
  | some f =>
    by_cases hp : f.phase = .receipt
    · rw [s.yielded_of_receipt hb hp]; exact h
    · rw [s.yielded_of_sent hb hp]
      refine { h with line := .of_free rfl h.line.completed rfl fun hs => (h.line.silent hs).2, units := ?_ }
      dsimp only
      split
      · exact h.requeued (unmarked_content _)
      · exact h.units

theorem State.running_of_offers {s : State} (ho : s.Offers) : s.running = true := ho.running

theorem FramesKept.move {s t : State} (m : Move s t) (h : FramesKept s) : FramesKept t := by
  have hl := h.line
  have latched := CardPort.latching_k h.pack
  cases m with
  | waited u hu =>
    refine { h with line := ?_ }
    rw [show s.running = _ from s.running_of_power rfl hu.before] at hl
    rw [State.running_of_power (s := { s with supply := u }) rfl hu.after]
    exact hl
  | released hr =>
    have hb := hl.parked hr
    exact { h with line := .of_free hb hl.completed rfl fun hs => (hl.silent hs).2 }
  | calibrated a fault window ha => exact { h with pack := latched _ }
  | held drive retention hr hd =>
    refine { h with line := ?_, units := h.requeued (unmarked_content _), pack := latched _ }
    refine ⟨nofun, nofun, ⟨?_, nofun⟩, nofun, fun _ => rfl, fun hs => ⟨?_, rfl⟩⟩
    · rintro (rfl : drive = .frame)
      rcases hd with hd | ⟨hd, -⟩ <;> cases hd
    · rcases hd with hd | ⟨-, f, hf, hp⟩
      · exact hd
      · have := hl.driven.2 ⟨f, hf, hp⟩
        rw [(hl.silent hs).1] at this
        cases this
  | wokenActive t outbound hp hr ha ht =>
    refine { h with
      line := .of_free rfl nofun rfl fun _ => rfl
      entries := fun i => ?_
      answers := nofun
      pack := CardPort.latching_k (p := s.port.posted _) h.pack _ }
    have := (h.entries i).atWake
    simpa [State.entry] using this
  | wokenConfig t outbound hp hr ha ht =>
    exact { h with line := .of_free rfl nofun rfl fun _ => rfl, pack := latched _ }
  | offered => exact { h with line := hl.of_same rfl (.inl rfl) rfl fun hs => ⟨hs, .inr rfl⟩, pack := latched _ }
  | itemSent body dest ho hlist =>
    exact { h with line := hl.of_sent rfl ⟨h.lists_wf hlist _, rfl⟩ nofun rfl rfl ho.running ho.sounding }
  | bidSent i figure ho hs hr hn =>
    have hi := h.entries i
    have hwf : (Bid.wf ⟨(s.entry i).key, (s.entry i).circuit, (s.entry i).misses + 1, (s.entry i).fingerprint, figure⟩) = true :=
      (Bid.wf_iff _).2 ⟨⟨Nat.le_add_left _ _, hi.bids hs hr⟩, hi.circuit (by rw [hs]; nofun)⟩
    exact { h with
      line := hl.of_sent rfl ⟨Frame.wf_card _ _ _ nofun hwf, rfl⟩ nofun rfl rfl ho.running ho.sounding }
  | carrySent i ho hs hu =>
    have hc : (s.entry i).circuit ≠ 0 := (h.entries i).circuit (by rintro he; rw [he] at hs; cases hs)
    obtain ⟨h1, h4, hall⟩ := h.packed_wf i hu
    have hwf : Carry.wf ⟨(s.entry i).key, (s.entry i).circuit, s.packed i⟩ = true := by
      simp only [Carry.wf, hall, circuitWf_of hc, h1, h4, decide_true, Bool.and_self]
    exact { h with
      line := hl.of_sent rfl ⟨Frame.wf_card _ _ _ nofun hwf, rfl⟩ nofun rfl rfl ho.running ho.sounding
      units := h.requeued (markUnits_content _ _ _) }
  | yielded => exact h.yielded
  | stuck => exact { h with line := hl.of_same rfl (.inl rfl) rfl fun hs => ⟨hs, .inr rfl⟩, pack := latched _ }
  | hunted gap dominant hg hd =>
    exact { h with line := hl.of_same rfl (.inl rfl) rfl fun hs => ⟨hs, .inr rfl⟩, pack := latched _ }
  | endedFrame => exact { h with line := hl.of_same rfl (.inl rfl) rfl fun hs => ⟨hs, .inr rfl⟩ }
  | readLow =>
    obtain ⟨hb, hc, hd, hrec⟩ := s.line.readBit_rest false
    refine { h with line := hl.of_same hb (.inl hc) hd fun hs => ⟨?_, .inl hrec⟩, pack := latched _ }
    rw [← ShelfLine.readBit_silenced s.line false]
    exact hs
  | wentOn => exact { h with line := hl.goOn }
  | heard f =>
    refine { h with line := hl.of_same rfl (.inl rfl) rfl fun hs => ⟨hs, ?_⟩, pack := latched _ }
    show (if s.line.closing = some ⟨f, .acted⟩ then s.line.receipt else none) = _ ∨
      (if s.line.closing = some ⟨f, .acted⟩ then s.line.receipt else none) = _
    split
    · exact .inl rfl
    · exact .inr rfl
  | clashed f hr hb =>
    have hd : s.line.drive = .released := by
      cases hd : s.line.drive with
      | released => rfl
      | frame =>
        obtain ⟨g, hg, hp⟩ := hl.driven.1 hd
        exact absurd (hb g hg) hp
      | abort => exact absurd hd (hl.aborted hr)
    exact { h with
      line := ⟨hl.buffer, hl.completed, hl.driven, hl.aborted, hl.parked, fun _ => ⟨hd, rfl⟩⟩, pack := latched _ }
  | receipted f r ha hs =>
    refine { h with line := hl.of_same rfl (.inl rfl) rfl fun hs' => ?_, pack := latched _ }
    have : s.line.silenced = true := hs'
    rw [hs] at this
    cases this
  | handedOver => exact { h with line := hl.of_same rfl (.inr rfl) rfl fun hs => ⟨hs, .inl rfl⟩ }
  | sendEnded o f hb hf => exact { h with line := State.sendEnded_composed hl o }
  | carryEnded o f hb =>
    refine { h with line := State.sendEnded_composed hl o, units := ?_ }
    dsimp only
    split
    · exact h.requeued (filtered_content _ _)
    · exact h.requeued (unmarked_content _)
  | rolled ha => exact h.rolled
  | queued a hu ha =>
    refine { h with answers := fun b hb => ?_ }
    rcases mem_queueAnswerItem _ _ _ hb with rfl | hb
    · exact h.answerable ha
    · exact h.answers b hb
  | answersLeft l hsub hlen => exact { h with answers := fun a ha => h.answers a (hsub a ha) }
  | dropped c f r hd =>
    obtain ⟨i, hne, rfl⟩ := hd
    exact h.dropped _ _ _ ((h.entries i).circuit hne)
  | dropsLeft l hlen hd =>
    refine { h with drops := fun d hm => ?_ }
    obtain ⟨x, hx, hc, -⟩ := hd d hm
    rw [hc]
    exact h.drops x hx
  | recounted i e he => exact h.withEntry i (h.recounted he)
  | returned i misses hs hm => exact h.pendingAs i misses hs hm
  | deferred i misses tick hs hr hm =>
    have hi := h.entries i
    have hne : (s.entry i).state ≠ .empty := by rcases hs with hs | hs <;> (rw [hs]; nofun)
    have hmiss : misses ≤ Config.missLimit := by
      rcases hm with hm | rfl
      · exact hm
      · exact hi.attempts.1
    exact { h.withEntry i (e := { s.entry i with state := .deferred, misses := misses, deadline := some tick })
      (hi.of_quiet hne rfl rfl hmiss ⟨nofun, nofun, nofun⟩) with }
  | bidTaken o f b i tick hb hf hs hr =>
    have hi := h.entries i
    have hne : (s.entry i).state ≠ .empty := by rw [hs]; nofun
    exact { h.withEntry i (e := { s.entry i with state := .bidding, attempt := b.attempt })
      ⟨fun _ => hi.circuit hne, ⟨(h.bid_attempt hb hf).2, hi.attempts.2⟩, nofun, fun _ => hr, nofun⟩ with
      line := State.sendEnded_composed hl o }
  | checking i hs hr ha hpres =>
    have hi := h.entries i
    have hne : (s.entry i).state ≠ .empty := by rw [hs]; nofun
    exact FramesKept.checkAsked (h.withEntry i (e := { s.entry i with state := .checking, deadline := none })
      ⟨fun _ => hi.circuit hne, hi.attempts, nofun, nofun, fun _ => ha⟩) i
  | submitted i content hs hu hc =>
    have hi := h.entries i
    refine { h.withEntry i (e := { s.entry i with txSeq := (s.entry i).txSeq + 1 })
      ⟨hi.circuit, hi.attempts, hi.bids, hi.bidding, hi.checks⟩ with units := fun u hm => ?_ }
    rcases List.mem_append.1 hm with hm | hm
    · exact h.units u hm
    · rw [List.mem_singleton.1 hm]; exact hc
  | gathered absent settle hc =>
    refine { h with entries := fun i => ?_ }
    have := (h.entries i).withAbsent absent
    simpa [State.entry] using this
  | gained frame hr hlost => exact { h with pack := latched _ }
  | ported p hp => exact { h with pack := by rw [State.settings, hp.settings]; exact h.pack }
  | configured g ha hg hk => exact { h with pack := hk h.pack }
  | _ => exact { h with }

theorem FramesKept.joinedAs {s : State} (h : FramesKept s) (i : Index) (st : EntryState) (late : Bool)
    (hs : (s.entry i).state = .bidding ∨ (s.entry i).state = .pending ∨ (s.entry i).state = .deferred)
    (hst : st = .joining ∨ st = .parked) : FramesKept (s.joinedAs i st late) := by
  have hi := h.entries i
  have hne : (s.entry i).state ≠ .empty := by rcases hs with hs | hs | hs <;> (rw [hs]; nofun)
  have hq : st ≠ .pending ∧ st ≠ .bidding ∧ st ≠ .checking := by
    rcases hst with rfl | rfl <;> exact ⟨nofun, nofun, nofun⟩
  exact { h.withEntry i (e := { s.entry i with state := st, late := late, deadline := none })
    (hi.of_quiet hne rfl rfl hi.attempts.2 hq) with }

theorem FramesKept.quieted {s : State} (h : FramesKept s) (table : Vector Entry 64)
    (ht : ∀ i : Index, table[i].Composable) (w : SlotSwitch) (v : LatchItems) :
    FramesKept { s with table := table, switch := w, port := s.port.latching v } :=
  { h with entries := ht, pack := CardPort.latching_k (p := s.port) h.pack v }

theorem FramesKept.shift {s t : State} (f : Shift s t) (h : FramesKept s) : FramesKept t := by
  cases f with
  | failed i reason far hs =>
    have hi := h.entries i
    exact { h.withEntry i (e := { s.entry i with state := .failed, failure := some ⟨reason, far⟩, deadline := none })
      (hi.of_quiet ((EntryState.standing_iff _).1 hs).1 rfl rfl hi.attempts.2 ⟨nofun, nofun, nofun⟩) with
      units := h.requeued (filtered_content _ _) }
  | connected k c hc hs =>
    have hi := h.entries c.index
    have hne : (s.entry c.index).state ≠ .empty := by rcases hs with hs | hs | hs <;> (rw [hs]; nofun)
    exact { h.withEntry c.index (e := { s.entry c.index with state := .live })
      (hi.of_quiet hne rfl rfl hi.attempts.2 ⟨nofun, nofun, nofun⟩) with }
  | freed k c hc hs => exact { h with }
  | joined i st late hs hr hst hp => exact (h.joinedAs i st late hs hst).checkAsked i
  | joinedLost i late hs hr hl => exact h.joinedAs i .parked late hs (.inr rfl)
  | parked i hs hl =>
    have hi := h.entries i
    exact h.withEntry i (hi.of_quiet (by rw [hs]; nofun) rfl rfl hi.attempts.2 ⟨nofun, nofun, nofun⟩)
  | highwayLost hr =>
    refine h.quieted _ (fun i => ?_) _ _
    simpa using (h.entries i).unlit s.switch i
  | timedOut tick ht => exact { h with }

theorem FramesKept.ended {s : State} (h : FramesKept s) : FramesKept s.endedAs := by
  unfold State.endedAs
  exact { h with }

theorem FramesKept.stable : Stable FramesKept FramesKept :=
  .same FramesKept.move FramesKept.shift fun _ h => h.ended

theorem State.Fresh.composable {s : State} {i : Index} {e : Entry} (h : s.Fresh i e) : e.Composable := by
  have hc := h.circuit
  rw [h.rest]
  exact ⟨fun _ => hc, ⟨Nat.zero_le _, Nat.zero_le _⟩, nofun, nofun, nofun⟩

theorem Entry.cleared_composable : Entry.cleared.Composable :=
  ⟨fun h => absurd rfl h, ⟨Nat.zero_le _, Nat.zero_le _⟩, nofun, nofun, nofun⟩

theorem FramesKept.invariant : Invariant FramesKept where
  effects := FramesKept.stable.effects
  placed {s t} p h := by
    cases p with
    | unlit i e hf hc hl => exact h.withEntry i hf.composable
    | asked i e hf hc hp => exact (h.withEntry i hf.composable).checkAsked i
    | relinking i e hf hc =>
      have hm : e.misses < Config.missLimit := by rw [hf.rest]; exact show 0 < Config.missLimit by decide
      have he := hf.composable
      exact h.withEntry i (he.pending (by rw [hf.parked]; nofun) rfl he.attempts.1 hm rfl)
  emptied {i s t} e h := by
    cases e with
    | failed hs =>
      exact { h.withEntry i Entry.cleared_composable with
        line := State.lineWithout_composed h.line i, units := h.requeued (filtered_content _ _) }
    | standing hs =>
      refine FramesKept.stable.settle ?_
      exact { h.withEntry i Entry.cleared_composable with
        line := State.lineWithout_composed h.line i
        answers := fun a ha => h.answers a (List.mem_of_mem_filter ha)
        units := h.requeued (filtered_content _ _) }
  anew s straps power mainOsc window retention :=
    { line := .of_free rfl nofun rfl fun _ => rfl
      entries := fun i => by rw [State.anew_entry]; exact Entry.cleared_composable
      answers := nofun
      drops := nofun
      units := nofun
      pack := Settings.defaults_inRange.pack }
  queue _ h := { h with }

/-- Settles O60: a frame is composed from lists, entries and units that are kept fit for one, and driven as R60, R65 and
R68 give. -/
theorem stepsComposeWellFormedFrames : Obligations.StepsComposeWellFormedFrames := fun _ t hs h =>
  (framesSound_iff t).2 (FramesKept.invariant.step ((framesSound_iff _).1 hs) h)

end Sys2Proof.Machine

/-! The campaign with its timers, M and the deadlines, and a card in CONFIG mode empty and silent (O55). -/

namespace Sys2Proof.Machine

/-! ### The rule, by block -/

/-- The timers run in their states, and STEADY holds no front (R73, R77, R81, R89). -/
structure RelinkEngine.Timed (r : RelinkEngine) : Prop where
  gather : r.gatherTimer.isSome = true ↔ r.campaign = .gather
  settle : r.settleTimer = .stopped ↔ r.campaign ≠ .contend
  front : r.campaign = .steady → r.front = none

/-- The entry's deadline stands where Table 1-1 and R80 have one, and none relinks in STEADY (R81). -/
structure Entry.DueIn (e : Entry) (c : Campaign) : Prop where
  deadline : e.deadline.isSome = true ↔ e.state = .deferred ∨ (e.state = .pending ∧ e.role = .far ∧ c = .contend)
  steady : c = .steady → e.state.relinking = false

/-- `ConfigSound`, `CampaignSound` but for the end of the campaign, and `DeadlinesSound`, by block. -/
structure CampaignKept (s : State) : Prop where
  config : ConfigSound s
  timers : s.relink.Timed
  figure : s.relink.campaign = .steady → s.supply.m = 0
  entries : ∀ i, (s.entry i).DueIn s.relink.campaign

theorem campaignKept_iff (s : State) :
    CampaignKept s ∧ ¬ s.settled ↔ ConfigSound s ∧ CampaignSound s ∧ DeadlinesSound s where
  mp h := by
    obtain ⟨h, hn⟩ := h
    exact ⟨h.config, {
      gatherTimer := h.timers.gather
      settleTimer := h.timers.settle
      figure := h.figure
      front := h.timers.front
      relinked := fun hc i => (h.entries i).steady hc
      ended := hn }, fun i => (h.entries i).deadline⟩
  mpr h := by
    obtain ⟨hconfig, hcamp, hdead⟩ := h
    exact ⟨{
      config := hconfig
      timers := ⟨hcamp.gatherTimer, hcamp.settleTimer, hcamp.front⟩
      figure := hcamp.figure
      entries := fun i => ⟨hdead i, fun hc => hcamp.relinked hc i⟩ }, hcamp.ended⟩

/-! ### CONFIG mode -/

theorem ConfigSound.of_active {s : State} (h : s.active = true) : ConfigSound s := by
  constructor <;> (intro hf; rw [h] at hf; cases hf)

theorem ConfigSound.active_of_entry {s : State} (h : ConfigSound s) {i : Index} (hi : (s.entry i).state ≠ .empty) :
    s.active = true := by
  cases ha : s.active with
  | true => rfl
  | false => exact absurd (by rw [h.table ha i]; rfl) hi

theorem ConfigSound.active_of_inUse {s : State} (h : ConfigSound s) (hu : s.inUse) : s.active = true :=
  hu.elim id fun ⟨_, hi⟩ => h.active_of_entry hi

theorem ConfigSound.active_of_buffer {s : State} (h : ConfigSound s) {f : TxFrame} (hf : s.line.buffer = some f) :
    s.active = true := by
  cases ha : s.active with
  | true => rfl
  | false => have := (h.silent ha).1; rw [hf] at this; cases this

theorem ConfigSound.active_of_campaign {s : State} (h : ConfigSound s) (hc : s.relink.campaign ≠ .steady) :
    s.active = true := by
  cases ha : s.active with
  | true => rfl
  | false => exact absurd (h.steady ha) hc

/-- The part drives nothing (R68). -/
def ShelfLine.Silent (l : ShelfLine) : Prop := l.buffer = none ∧ l.drive = .released ∧ l.receipt = none

theorem ShelfLine.Silent.goOn {l : ShelfLine} (h : l.Silent) : l.goOn.Silent := by
  unfold ShelfLine.goOn
  rw [h.1]
  exact h

theorem ShelfLine.Silent.sendEnded {s : State} (h : s.line.Silent) (o : SendOutcome) : (s.sendEnded o).line.Silent := by
  refine ⟨rfl, rfl, ?_⟩
  show (if SendOutcome.completes o then none else s.line.receipt) = none
  split
  · rfl
  · exact h.2.2

theorem State.lineWithout_silent {s : State} (h : s.line.Silent) (i : Index) : (s.lineWithout i).Silent :=
  ⟨s.lineWithout_none i h.1, h.2.1, h.2.2⟩

/-! ### What leaves the rule as it is -/

namespace CampaignKept

theorem withPort {s : State} (h : CampaignKept s) {p : CardPort} (hp : p.mode = s.port.mode) :
    CampaignKept { s with port := p } := by
  have ha : State.active { s with port := p } = s.active := by simp only [State.active, hp]
  have hc := h.config
  exact { h with
    config := {
      steady := fun hf => hc.steady (ha ▸ hf)
      table := fun hf => hc.table (ha ▸ hf)
      roll := fun hf => hc.roll (ha ▸ hf)
      lists := fun hf => hc.lists (ha ▸ hf)
      units := fun hf => hc.units (ha ▸ hf)
      delivery := fun hf => hc.delivery (ha ▸ hf)
      silent := fun hf => hc.silent (ha ▸ hf) } }

theorem latching {s : State} (h : CampaignKept s) (v : LatchItems) : CampaignKept { s with port := s.port.latching v } :=
  h.withPort (CardPort.latching_mode _ _)

theorem posted {s : State} (h : CampaignKept s) (ns : List Notice) : CampaignKept { s with port := s.port.posted ns } :=
  h.withPort rfl

theorem withLine {s : State} (h : CampaignKept s) {l : ShelfLine} (hl : s.line.Silent → l.Silent) :
    CampaignKept { s with line := l } :=
  { h with config := { h.config with silent := fun hf => hl (h.config.silent hf) } }

theorem withUnits {s : State} (h : CampaignKept s) {us : List QueuedUnit} (hu : s.units = [] → us = []) :
    CampaignKept { s with units := us } :=
  { h with config := { h.config with units := fun hf => hu (h.config.units hf) } }

theorem withSwitch {s : State} (h : CampaignKept s) (w : SlotSwitch) : CampaignKept { s with switch := w } :=
  { h with config := { h.config with } }

/-- The supply but for M, which stands. -/
theorem withSupply {s : State} (h : CampaignKept s) {u : SupplyMonitor} (hm : u.m = s.supply.m) :
    CampaignKept { s with supply := u } :=
  { h with config := { h.config with }, figure := fun hc => hm.trans (h.figure hc) }

/-- The Relink Engine but for the campaign, its timers and the front, with no item more in CONFIG mode. -/
theorem withRelink {s : State} (h : CampaignKept s) {r : RelinkEngine} (hc : r.campaign = s.relink.campaign)
    (ht : r.Timed) (hl : s.active = false → r.pendingRoll = none ∧ r.answers = [] ∧ r.drops = []) :
    CampaignKept { s with relink := r } where
  config := { h.config with
    steady := fun hf => hc.trans (h.config.steady hf)
    roll := fun hf => (hl hf).1
    lists := fun hf => (hl hf).2 }
  timers := ht
  figure hs := h.figure (hc.symm.trans hs)
  entries i := by
    show (s.entry i).DueIn r.campaign
    rw [hc]
    exact h.entries i

theorem lists {s : State} (h : CampaignKept s) (ha : s.active = false) :
    s.relink.pendingRoll = none ∧ s.relink.answers = [] ∧ s.relink.drops = [] :=
  ⟨h.config.roll ha, h.config.lists ha⟩

/-- The Relink Engine in ACTIVE mode. -/
theorem inActive {s : State} (h : CampaignKept s) (ha : s.active = true) {r : RelinkEngine}
    (hc : r.campaign = s.relink.campaign) (ht : r.Timed) : CampaignKept { s with relink := r } :=
  h.withRelink hc ht fun hf => by rw [ha] at hf; cases hf

/-- An entry written in ACTIVE mode. -/
theorem withEntry {s : State} (h : CampaignKept s) (ha : s.active = true) (i : Index) {e : Entry}
    (he : e.DueIn s.relink.campaign) : CampaignKept (s.withEntry i e) :=
  { h with
    config := .of_active ha
    entries := fun j => by
      show ((s.withEntry i e).entry j).DueIn _
      rw [State.withEntry_entry]
      split
      · exact he
      · exact h.entries j }

theorem checkAsked {s : State} (h : CampaignKept s) (i : Index) : CampaignKept (s.checkAsked i) := by
  rw [State.checkAsked_rest]
  exact h.withSwitch _

theorem active {s : State} (h : CampaignKept s) {i : Index} (hi : (s.entry i).state.standing = true) : s.active = true :=
  h.config.active_of_entry ((EntryState.standing_iff _).1 hi).1

/-- Where an entry relinks, the campaign is not STEADY. -/
theorem relinks {s : State} (h : CampaignKept s) {i : Index} (hi : (s.entry i).state.relinking = true) :
    s.relink.campaign ≠ .steady := fun hc => by
  rw [(h.entries i).steady hc] at hi
  cases hi

end CampaignKept

/-! ### Entries -/

/-- An entry with no deadline, neither DEFERRED nor a PENDING FAR one in CONTEND. -/
theorem Entry.DueIn.of_none {e : Entry} {c : Campaign} (hd : e.deadline = none) (hs : e.state ≠ .deferred)
    (hp : e.state = .pending → e.role = .far → c ≠ .contend) (hr : c = .steady → e.state.relinking = false) : e.DueIn c where
  deadline := by
    rw [hd]
    refine ⟨nofun, fun h => ?_⟩
    rcases h with h | ⟨hst, hrole, hc⟩
    · exact absurd h hs
    · exact absurd hc (hp hst hrole)
  steady := hr

/-- An entry in neither state that has a deadline has none. -/
theorem Entry.DueIn.none {e : Entry} {c : Campaign} (h : e.DueIn c) (hs : e.state ≠ .deferred)
    (hp : e.state = .pending → e.role = .origin) : e.deadline = none := by
  have : e.deadline.isSome ≠ true := fun hd => by
    rcases h.deadline.1 hd with hd | ⟨hst, hrole, -⟩
    · exact hs hd
    · rw [hp hst] at hrole; cases hrole
  simpa using this

theorem Entry.cleared_dueIn (c : Campaign) : Entry.cleared.DueIn c :=
  .of_none rfl nofun nofun fun _ => rfl

/-- Outside STEADY and CONTEND a deadline stands in DEFERRED alone. -/
theorem Entry.atWake_dueIn {e : Entry} {c : Campaign} (h : e.DueIn c) : e.atWake.DueIn .gather := by
  unfold Entry.atWake
  split
  · exact .of_none rfl nofun (fun _ _ => nofun) nofun
  · next hs =>
    have hst : ∀ st : EntryState, st.standing = true → e.state ≠ st := fun st ht he => hs (he ▸ ht)
    exact .of_none (h.none (hst _ rfl) fun hp => absurd hp (hst _ rfl)) (hst _ rfl) (fun _ _ => nofun) nofun

theorem Entry.DueIn.unlit {e : Entry} {c : Campaign} (h : e.DueIn c) (w : SlotSwitch) (i : Index) :
    (e.unlit w i).DueIn c := by
  unfold Entry.unlit
  split
  · next hs =>
    have hne : e.state ≠ .deferred ∧ e.state ≠ .pending := by
      rcases hs with hs | ⟨-, hs | hs⟩ <;> (rw [hs]; exact ⟨nofun, nofun⟩)
    exact .of_none (h.none hne.1 fun hp => absurd hp hne.2) nofun nofun fun _ => rfl
  · exact h

theorem Entry.withAbsent_dueIn {e : Entry} (h : e.DueIn .gather) (d : Nat) : (e.withAbsent d).DueIn .contend := by
  unfold Entry.withAbsent
  split
  · next hp => exact ⟨⟨fun _ => .inr ⟨hp.1, hp.2, rfl⟩, fun _ => rfl⟩, nofun⟩
  · next hp =>
    refine ⟨h.deadline.trans (or_congr Iff.rfl ⟨fun ⟨_, _, hc⟩ => (nomatch hc), fun ⟨hst, hrole, _⟩ => ?_⟩), nofun⟩
    exact absurd ⟨hst, hrole⟩ hp

/-- A campaign that gathers has the deadlines that a steady one has. -/
theorem Entry.DueIn.gathering {e : Entry} (h : e.DueIn .steady) : e.DueIn .gather where
  deadline := h.deadline.trans (or_congr Iff.rfl ⟨fun ⟨_, _, hc⟩ => (nomatch hc), fun ⟨_, _, hc⟩ => (nomatch hc)⟩)
  steady := nofun

theorem Entry.DueIn.ending {e : Entry} {c : Campaign} (h : e.DueIn c) (hr : e.state.relinking = false) :
    e.DueIn .steady where
  deadline := h.deadline.trans (or_congr Iff.rfl ⟨fun ⟨hst, _, _⟩ => absurd hr (by rw [hst]; decide),
    fun ⟨_, _, hc⟩ => (nomatch hc)⟩)
  steady _ := hr

/-! ### The moves -/

namespace CampaignKept

theorem dropped {s : State} (h : CampaignKept s) (ha : s.active = true) (c : Circuit) (f : CardSlot) (r : DropReason) :
    CampaignKept (s.dropped c f r) := by
  obtain ⟨ns, hns⟩ := s.dropped_port c f r
  rw [State.dropped_rest, hns]
  exact (h.inActive (r := { s.relink with drops := (s.dropped c f r).relink.drops }) ha rfl
    ⟨h.timers.gather, h.timers.settle, h.timers.front⟩).withPort rfl

/-- A campaign begun or begun again in GATHER, by this card or a peer (R74 to R77). -/
theorem toGather {s : State} (ha : s.active = true) (hg : s.relink.gatherTimer.isSome = true)
    (hc : s.relink.campaign = .gather) (hs : s.relink.settleTimer = .stopped)
    (he : ∀ i, (s.entry i).DueIn .gather) : CampaignKept s where
  config := .of_active ha
  timers := ⟨⟨fun _ => hc, fun _ => hg⟩, ⟨fun _ => by rw [hc]; nofun, fun _ => hs⟩, fun h => by rw [hc] at h; cases h⟩
  figure h := by rw [hc] at h; cases h
  entries i := by rw [hc]; exact he i

theorem rolled {s : State} (h : CampaignKept s) (ha : s.active = true) : CampaignKept s.rolled := by
  unfold State.rolled
  split
  · next hc =>
    have he : ∀ i, (s.entry i).DueIn .gather := fun i => by
      have := h.entries i
      rw [hc] at this
      exact this.gathering
    exact toGather ha rfl rfl rfl he
  · next hc => exact h.inActive ha rfl ⟨⟨fun _ => hc, fun _ => rfl⟩, h.timers.settle, h.timers.front⟩
  · exact h

theorem yielded {s : State} (h : CampaignKept s) : CampaignKept s.yielded := by
  cases hb : s.line.buffer with
  | none => rw [s.yielded_of_free hb]; exact h
  | some f =>
    by_cases hp : f.phase = .receipt
    · rw [s.yielded_of_receipt hb hp]; exact h
    · rw [s.yielded_of_sent hb hp]
      refine (h.withLine (l := { s.line with buffer := none, drive := .released }) fun hs => ⟨rfl, rfl, hs.2.2⟩).withUnits ?_
      intro hu
      split
      · rw [hu]; rfl
      · exact hu

/-- An entry returned to PENDING has its absent deadline, and begins a campaign where none runs (R17, R75, R80). -/
theorem pendingAs {s : State} (h : CampaignKept s) {i : Index} (misses : Nat)
    (hs : (s.entry i).state.standing = true) : CampaignKept (s.pendingAs i misses) := by
  have ha := h.active hs
  have rest : ∀ (r : RelinkEngine) (p : CardPort), p.mode = s.port.mode → r.Timed → r.campaign ≠ .steady →
      (s.relink.campaign ≠ .steady → r.campaign = s.relink.campaign) →
      (r.campaign = .gather ↔ s.relink.campaign = .gather) →
      CampaignKept { s with
        table := s.table.set i
          { s.entry i with
            state := .pending, late := false, noReceipt := 0, busy := 0, misses := misses,
            deadline :=
              if (s.entry i).role = .far ∧ s.relink.campaign ≠ .gather then some (s.now + s.settings.p) else none }
        relink := { r with answerTimer := s.timerWithout i }
        switch := s.switchWithout i
        port := p } := by
    intro r p hp ht hne hsame hg
    have ha' : p.mode == .active := by rw [hp]; exact ha
    refine ⟨.of_active ha', ⟨ht.gather, ht.settle, ht.front⟩, fun hc => absurd hc hne, fun j => ?_⟩
    rw [entry_of_table_set s _ i j _ rfl]
    show Entry.DueIn _ r.campaign
    split
    · have hcont : s.relink.campaign ≠ .gather ↔ r.campaign = .contend := by
        refine (not_congr hg).symm.trans ?_
        cases hr : r.campaign with
        | steady => exact absurd hr hne
        | gather => exact ⟨fun h => absurd rfl h, nofun⟩
        | contend => exact ⟨fun _ => rfl, fun _ => nofun⟩
      by_cases hr : (s.entry i).role = .far ∧ s.relink.campaign ≠ .gather
      · rw [if_pos hr]
        exact ⟨⟨fun _ => .inr ⟨rfl, hr.1, hcont.1 hr.2⟩, fun _ => rfl⟩, fun hc => absurd hc hne⟩
      · rw [if_neg hr]
        exact .of_none rfl nofun (fun _ hrole hc => hr ⟨hrole, hcont.2 hc⟩) fun hc => absurd hc hne
    · have hj := h.entries j
      by_cases hc : s.relink.campaign = .steady
      · rw [hc] at hj
        refine ⟨hj.deadline.trans (or_congr Iff.rfl ⟨fun ⟨_, _, hx⟩ => (nomatch hx), fun ⟨hx, _, _⟩ => ?_⟩),
          fun hc => absurd hc hne⟩
        have := hj.steady rfl
        rw [hx] at this
        cases this
      · rw [hsame hc]; exact hj
  unfold State.pendingAs
  by_cases hc : s.relink.campaign = .steady
  · simp only [hc, if_true]
    have hgt : ¬ s.relink.gatherTimer.isSome = true := fun hg => by
      have := h.timers.gather.1 hg; rw [hc] at this; cases this
    have := rest s.begunForEntry (s.port.posted [⟨.campaignBegun, BitVec.ofNat 8 i.val, 4, 0⟩]) rfl
      ⟨⟨fun hg => absurd hg hgt, nofun⟩, ⟨nofun, fun hn => absurd rfl hn⟩, nofun⟩ nofun
      (fun hn => absurd hc hn) ⟨nofun, fun hg => by rw [hc] at hg; cases hg⟩
    simpa only [hc] using this
  · simp only [hc, if_false]
    exact rest s.relink s.port rfl h.timers hc (fun _ => rfl) Iff.rfl

theorem sendEnded {s : State} (h : CampaignKept s) (o : SendOutcome) : CampaignKept (s.sendEnded o) :=
  h.withLine fun hl => ShelfLine.Silent.sendEnded hl o

theorem move {s t : State} (m : Move s t) (h : CampaignKept s) : CampaignKept t := by
  have hc := h.config
  have ht := h.timers
  cases m with
  | elapsed n => exact { h with config := { hc with } }
  | waited u hu => exact h.withSupply hu.m
  | released hr => exact h.withLine fun hl => ⟨hl.1, rfl, hl.2.2⟩
  | calibrated a fault window ha =>
    exact (h.withSupply (u := { s.supply with a := a, calFault := fault, window := window }) rfl).withPort
      (CardPort.latching_mode _ _)
  | held drive retention hr hd =>
    have hl : s.line.Silent → drive = .released := fun hl => by
      rcases hd with hd | ⟨-, f, hf, -⟩
      · exact hd
      · rw [hl.1] at hf; cases hf
    exact (((((h.withSupply (u := { s.supply with
        power := .hold, t := 0, window := none, upSeen := false, retention := retention }) rfl).withLine (l := { s.line with
        receiver := .hunt, buffer := none, completed := none, receipt := none, closing := none, drive := drive })
        fun hs => ⟨rfl, hl hs, rfl⟩).withSwitch s.switch.parked).withUnits (us := unmark s.units)
        fun hu => by rw [hu]; rfl).withRelink (r := { s.relink with arrival := .none }) rfl
        ⟨ht.gather, ht.settle, ht.front⟩ h.lists).withPort (CardPort.latching_mode _ _)
  | resetPort low edge =>
    exact { h with config := { hc with delivery := fun hf => ⟨(hc.delivery hf).1, rfl⟩ } }
  | wokenActive t outbound hp hr ha htt =>
    refine toGather (by rw [State.active, CardPort.latching_mode]; exact ha) rfl rfl rfl fun i => ?_
    have := Entry.atWake_dueIn (h.entries i)
    simpa [State.entry] using this
  | wokenConfig t outbound hp hr ha htt =>
    have hk := ((((h.withSupply (u := { s.supply with
        power := .run, warmup := Config.warmupCycles, window := some 0, t := t, e := episodeFigure t s.supply.a }) rfl).withLine
        (l := s.line.wake) fun _ => ⟨rfl, rfl, rfl⟩).withSwitch { s.switch.parked with outbound := outbound }).withRelink
        (r := { s.relink with
          roster := Vector.replicate 32 RosterRecord.absent, openBid := none, arrival := .none }) rfl
        ⟨ht.gather, ht.settle, ht.front⟩ h.lists).withPort
        (p := s.port.latching { s.live with stuck := false, lost := true }) (CardPort.latching_mode _ _)
    exact { hk with config := { hk.config with } }
  | offered =>
    exact ((h.withLine (l := { s.line with
      receiver := .idle, gap := 11, dominant := 0, stuck := false, receipt := none, closing := none })
      fun hl => ⟨hl.1, hl.2.1, rfl⟩).withRelink (r := { s.relink with arrival := .none }) rfl
      ⟨ht.gather, ht.settle, ht.front⟩ h.lists).withPort (CardPort.latching_mode _ _)
  | itemSent body dest ho hlist => exact { h with config := .of_active ho.active }
  | bidSent i figure ho hs hr hn => exact { h with config := .of_active ho.active }
  | carrySent i ho hs hu => exact { h with config := .of_active ho.active }
  | yielded => exact h.yielded
  | stuck =>
    exact (h.withLine (l := { s.line with
      receiver := .hunt, gap := 0, dominant := Config.stuckBits + 1, stuck := true, receipt := none, closing := none })
      fun hl => ⟨hl.1, hl.2.1, rfl⟩).withPort (CardPort.latching_mode _ _)
  | hunted gap dominant hg hd =>
    exact (h.withLine (l := { s.line with
      receiver := .hunt, gap := gap, dominant := dominant, stuck := false, receipt := none, closing := none })
      fun hl => ⟨hl.1, hl.2.1, rfl⟩).withPort (CardPort.latching_mode _ _)
  | endedFrame => exact h.withLine fun hl => ⟨hl.1, hl.2.1, rfl⟩
  | readLow =>
    obtain ⟨hb, -, hd, hrec⟩ := s.line.readBit_rest false
    exact (h.withLine (l := s.line.readBit false) fun hl => ⟨hb.trans hl.1, hd.trans hl.2.1, hrec.trans hl.2.2⟩).withPort
      (CardPort.latching_mode _ _)
  | wentOn => exact h.withLine fun hl => hl.goOn
  | heard f =>
    refine (h.withLine (l := s.line.heard f) fun hl => ⟨hl.1, hl.2.1, ?_⟩).withPort (CardPort.latching_mode _ _)
    show (if _ then s.line.receipt else none) = none
    rw [hl.2.2, ite_self]
  | clashed f hr hb =>
    exact (h.withLine (l := { s.line.heard f with silenced := true, receipt := none })
      fun hl => ⟨hl.1, hl.2.1, rfl⟩).withPort (CardPort.latching_mode _ _)
  | receipted f r ha hs =>
    exact { h with config := .of_active (by rw [State.receipted, State.active, CardPort.latching_mode]; exact ha) }
  | handedOver => exact h.withLine fun hl => hl
  | sendEnded o f hb hf => exact h.sendEnded o
  | carryEnded o f hb =>
    refine (h.sendEnded o).withUnits fun hu => ?_
    rw [show s.units = [] from hu]
    split <;> rfl
  | recorded roster openBid arrival => exact h.withRelink rfl ⟨ht.gather, ht.settle, ht.front⟩ h.lists
  | settleRestarted tick hcon =>
    exact h.withRelink rfl ⟨ht.gather, ⟨nofun, fun hn => absurd hcon hn⟩, ht.front⟩ h.lists
  | frontMoved front hne => exact h.withRelink rfl ⟨ht.gather, ht.settle, fun hs => absurd hs hne⟩ h.lists
  | rolled ha => exact h.rolled ha
  | queued a hu ha => exact h.inActive (hc.active_of_inUse hu) rfl ⟨ht.gather, ht.settle, ht.front⟩
  | answersLeft l hsub hlen =>
    refine h.withRelink rfl ⟨ht.gather, ht.settle, ht.front⟩ fun hf => ⟨(h.lists hf).1, ?_, (h.lists hf).2.2⟩
    rw [(h.lists hf).2.1] at hlen
    exact List.length_eq_zero_iff.1 (Nat.le_zero.1 hlen)
  | dropped c f r hd =>
    obtain ⟨i, hne, -⟩ := hd
    exact h.dropped (hc.active_of_entry hne) _ _ _
  | dropsLeft l hlen hd =>
    refine h.withRelink rfl ⟨ht.gather, ht.settle, ht.front⟩ fun hf => ⟨(h.lists hf).1, (h.lists hf).2.1, ?_⟩
    rw [(h.lists hf).2.2] at hlen
    exact List.length_eq_zero_iff.1 (Nat.le_zero.1 hlen)
  | rollTaken tick =>
    refine h.withRelink rfl ⟨?_, ht.settle, ht.front⟩ fun hf => ⟨rfl, (h.lists hf).2⟩
    show Option.isSome (if s.relink.campaign = .gather then some tick else s.relink.gatherTimer) = true ↔ _
    split
    · next hg => exact ⟨fun _ => hg, fun _ => rfl⟩
    · exact ht.gather
  | recounted i e he =>
    refine h.withEntry (h.active he.standing) i ?_
    have hi := h.entries i
    rw [he.rest]
    exact ⟨hi.deadline, hi.steady⟩
  | returned i misses hs hm => exact h.pendingAs misses hs
  | deferred i misses tick hs hr hm =>
    have hrel : (s.entry i).state.relinking = true := by rcases hs with hs | hs <;> (rw [hs]; rfl)
    have hst : (s.entry i).state.standing = true := by rcases hs with hs | hs <;> (rw [hs]; rfl)
    have ha := h.active hst
    exact (h.withEntry ha i (e := { s.entry i with state := .deferred, misses := misses, deadline := some tick })
      ⟨⟨fun _ => .inl rfl, fun _ => rfl⟩, fun hs => absurd hs (h.relinks hrel)⟩).inActive ha rfl
      ⟨ht.gather, ht.settle, ht.front⟩
  | bidTaken o f b i tick hb hf hs hr =>
    have ha := hc.active_of_buffer hb
    have hd : (s.entry i).deadline = none := (h.entries i).none (by rw [hs]; nofun) fun _ => hr
    exact ((h.sendEnded o).withEntry ha i (e := { s.entry i with state := .bidding, attempt := b.attempt })
      (.of_none hd nofun nofun fun hs' => absurd hs' (h.relinks (i := i) (by rw [hs]; rfl)))).inActive ha rfl
      ⟨ht.gather, ht.settle, ht.front⟩
  | checking i hs hr ha hpres =>
    exact (h.withEntry (h.active (i := i) (by rw [hs]; rfl)) i
      (e := { s.entry i with state := .checking, deadline := none })
      (.of_none rfl nofun nofun fun hs' => absurd hs' (h.relinks (i := i) (by rw [hs]; rfl)))).checkAsked i
  | submitted i content hs hu hcont =>
    have hi := h.entries i
    have hk := h.withEntry (h.active hs) i (e := { s.entry i with txSeq := (s.entry i).txSeq + 1 })
      ⟨hi.deadline, hi.steady⟩
    exact { hk with config := .of_active (h.active hs) }
  | gathered absent settle hg =>
    have he : ∀ i, (s.entry i).DueIn .gather := fun i => by rw [← hg]; exact h.entries i
    refine ⟨.of_active (hc.active_of_campaign (by rw [hg]; nofun)),
      ⟨⟨fun hn => absurd hn Bool.false_ne_true, nofun⟩, ⟨nofun, fun hn => absurd rfl hn⟩, nofun⟩,
      fun hn => Campaign.noConfusion hn, fun i => ?_⟩
    have := Entry.withAbsent_dueIn (he i) absent
    simpa [State.entry] using this
  | runCounted n hn => exact h.withSwitch _
  | gained frame hr hl =>
    exact (h.withPort (p := s.port.latching { s.live with lost := false }) (CardPort.latching_mode _ _)).withSwitch
      (SlotSwitch.fill true { s.switch with
        highway := .present, runCount := Config.syncRun, missing := 0, timing := some ⟨frame, 0⟩
        checkQueue := s.switch.checkQueue ++ s.parkedIndices })
  | frameStarted frame missing hp hm => exact h.withSwitch _
  | slotRun x outbound inbound hx hlt hin => exact h.withSwitch _
  | readingCounted k c hc hlt => exact h.withSwitch _
  | ported p hp => exact h.withPort hp.mode
  | configured g ha hg hk => exact h.withPort rfl
  | started tick ha =>
    have he : ∀ i, (s.entry i).DueIn .gather := fun i => by
      have := h.entries i
      rw [hc.steady ha] at this
      exact this.gathering
    exact toGather rfl rfl rfl rfl he
  | rearmed => exact h.withPort rfl
  | delivered d hr he =>
    refine { h with config := { hc with delivery := fun hf => ?_ } }
    rcases he with hu | he
    · have := hc.active_of_inUse hu
      rw [show s.active = false from hf] at this
      cases this
    · exact he (hc.delivery hf)

theorem joinedAs {s : State} (h : CampaignKept s) (i : Index) (st : EntryState) (late : Bool)
    (hs : (s.entry i).state = .bidding ∨ (s.entry i).state = .pending ∨ (s.entry i).state = .deferred)
    (hst : st = .joining ∨ st = .parked) : CampaignKept (s.joinedAs i st late) := by
  have ht := h.timers
  have hrel : (s.entry i).state.relinking = true := by rcases hs with hs | hs | hs <;> (rw [hs]; rfl)
  have ha : s.active = true := h.config.active_of_campaign (h.relinks hrel)
  have he : Entry.DueIn { s.entry i with state := st, late := late, deadline := none } s.relink.campaign := by
    rcases hst with rfl | rfl <;> exact .of_none rfl nofun nofun fun hc => absurd hc (h.relinks hrel)
  exact ((h.withEntry ha i he).inActive (r := { s.relink with
      answerTimer := s.timerWithout i
      joined := if s.relink.campaign = .steady then s.relink.joined else min (s.relink.joined + 1) 255
      late := if s.relink.campaign ≠ .steady ∧ late = true then min (s.relink.late + 1) 255 else s.relink.late })
    ha rfl ⟨ht.gather, ht.settle, ht.front⟩).withPort rfl

/-- Entries written by the rule, with the Slot Switch parked. -/
theorem quieted {s : State} (h : CampaignKept s) (table : Vector Entry 64)
    (ht : ∀ i : Index, table[i].DueIn s.relink.campaign)
    (hc : s.active = false → ∀ i : Index, table[i] = Entry.cleared) (w : SlotSwitch) (v : LatchItems) :
    CampaignKept { s with table := table, switch := w, port := s.port.latching v } := by
  have hk := (h.withSwitch w).withPort (p := s.port.latching v) (CardPort.latching_mode _ _)
  refine { hk with config := { hk.config with table := fun hf => hc ?_ }, entries := ht }
  have hf : ((s.port.latching v).mode == Mode.active) = false := hf
  rwa [CardPort.latching_mode] at hf

theorem shift {s t : State} (f : Shift s t) (h : CampaignKept s) : CampaignKept t := by
  have ht := h.timers
  cases f with
  | failed i reason far hs =>
    have ha := h.active hs
    have hk := (h.withEntry ha i (e := { s.entry i with state := .failed, failure := some ⟨reason, far⟩, deadline := none })
      (.of_none rfl nofun nofun fun _ => rfl)).inActive (r := { s.relink with
        answerTimer := s.timerWithout i
        failed := if s.relink.campaign = .steady then s.relink.failed else min (s.relink.failed + 1) 255 }) ha rfl
        ⟨ht.gather, ht.settle, ht.front⟩
    exact { hk with config := .of_active ha }
  | connected k c hc hs =>
    have hst : (s.entry c.index).state.standing = true := by rcases hs with hs | hs | hs <;> (rw [hs]; rfl)
    have hd : (s.entry c.index).deadline = none := by
      refine (h.entries c.index).none ?_ fun hp => ?_
      · rcases hs with hs | hs | hs <;> (rw [hs]; nofun)
      · rcases hs with hs | hs | hs <;> (rw [hs] at hp; cases hp)
    exact ((h.withEntry (h.active hst) c.index (e := { s.entry c.index with state := .live })
      (.of_none hd nofun nofun fun _ => rfl)).withSwitch _).withPort
      (p := s.port.posted [⟨.connected, BitVec.ofNat 8 c.index.val, 0, 0⟩]) rfl
  | freed k c hc hs => exact h.withSwitch _
  | joined i st late hs hr hst hp => exact (h.joinedAs i st late hs hst).checkAsked i
  | joinedLost i late hs hr hl => exact h.joinedAs i .parked late hs (.inr rfl)
  | parked i hs hl =>
    exact h.withEntry (h.active (i := i) (by rw [hs]; rfl)) i
      (e := { s.entry i with state := .parked, deadline := none }) (.of_none rfl nofun nofun fun _ => rfl)
  | highwayLost hr =>
    refine h.quieted _ (fun i => ?_) (fun hf i => ?_) _ _
    · simpa using (h.entries i).unlit s.switch i
    · simp only [Fin.getElem_fin, Vector.getElem_ofFn, h.config.table hf]
      exact if_neg fun hs => by rcases hs with hs | ⟨-, hs | hs⟩ <;> cases hs
  | timedOut tick hto =>
    refine h.withRelink rfl ⟨ht.gather, ⟨nofun, fun hn => ?_⟩, ht.front⟩ h.lists
    have := ht.settle.2 hn
    rw [hto] at this
    cases this

theorem settle {s : State} (h : CampaignKept s) : CampaignKept s.endIfSettled ∧ ¬ s.endIfSettled.settled := by
  by_cases hs : s.settled
  · rw [s.endIfSettled_of_settled hs]
    obtain ⟨hc, -, hrel⟩ := hs
    have ha : s.active = true := h.config.active_of_campaign (by rw [hc]; nofun)
    have hg : ¬ s.relink.gatherTimer.isSome = true := fun hg => by
      have := h.timers.gather.1 hg; rw [hc] at this; cases this
    refine ⟨⟨.of_active ha, ⟨⟨fun h => absurd h hg, nofun⟩, ⟨fun _ => nofun, fun _ => rfl⟩, fun _ => rfl⟩, fun _ => rfl,
      fun i => (h.entries i).ending (hrel i)⟩, fun hs => ?_⟩
    cases hs.1
  · rw [s.endIfSettled_of_not hs]
    exact ⟨h, hs⟩

end CampaignKept

/-! ### The end of the campaign (R81) -/

theorem State.not_settled_of_relinking {t : State} (i : Index) (h : (t.entry i).state.relinking = true) : ¬ t.settled := by
  rintro ⟨-, -, hr⟩
  rw [hr i] at h
  cases h

theorem State.not_settled_of_campaign {t : State} (h : t.relink.campaign ≠ .contend) : ¬ t.settled := fun hs => h hs.1

theorem State.not_settled_of_timer {t : State} (h : t.relink.settleTimer ≠ .runOut) : ¬ t.settled := fun hs => h hs.2.1

theorem State.not_settled_of_gather {t : State} (h : t.relink.campaign = .gather) : ¬ t.settled :=
  State.not_settled_of_campaign (by rw [h]; nofun)

theorem State.not_settled_of_running {t : State} {tick : Nat} (h : t.relink.settleTimer = .runsOutAt tick) : ¬ t.settled :=
  State.not_settled_of_timer (by rw [h]; nofun)

theorem State.not_settled_of_steady {t : State} (h : t.relink.campaign = .steady) : ¬ t.settled :=
  State.not_settled_of_campaign (by rw [h]; nofun)

/-- An entry is written, and relinks unless the one before it did not. -/
theorem State.settled.of_withEntry {s t : State} (h : t.settled) (i : Index) {e : Entry}
    (ht : t.table = s.table.set i e) (hc : t.relink.campaign = s.relink.campaign)
    (hs : t.relink.settleTimer = s.relink.settleTimer)
    (hr : (s.entry i).state.relinking = true → e.state.relinking = true) : s.settled := by
  obtain ⟨hcamp, hset, hrel⟩ := h
  refine ⟨hc.symm.trans hcamp, hs.symm.trans hset, fun j => ?_⟩
  have hj := hrel j
  rw [entry_of_table_set s t i j e ht] at hj
  split at hj
  · next hij =>
    subst hij
    cases hx : (s.entry i).state.relinking with
    | false => rfl
    | true => rw [hr hx] at hj; cases hj
  · exact hj

theorem Move.settled {s t : State} (m : Move s t) (h : t.settled) : s.settled := by
  cases m with
  | wokenActive t outbound hp hr ha htt => exact (State.not_settled_of_gather rfl h).elim
  | wokenConfig t outbound hp hr ha htt => exact h
  | yielded =>
    rw [State.yielded_rest] at h
    exact h
  | settleRestarted tick hc => exact (State.not_settled_of_running rfl h).elim
  | rolled ha =>
    unfold State.rolled at h
    split at h
    · exact (State.not_settled_of_gather rfl h).elim
    · exact h
    · exact h
  | dropped c f r hd =>
    rw [State.dropped_rest] at h
    exact h
  | recounted i e he =>
    refine h.of_withEntry (s := s) i rfl rfl rfl fun hr => ?_
    rw [he.rest]
    exact hr
  | returned i misses hs hm =>
    refine (State.not_settled_of_relinking i ?_ h).elim
    rw [entry_of_table_set s _ i i _ rfl, if_pos rfl]
    rfl
  | deferred i misses tick hs hr hm =>
    refine (State.not_settled_of_relinking i ?_ h).elim
    rw [entry_of_table_set s _ i i _ rfl, if_pos rfl]
    rfl
  | bidTaken o f b i tick hb hf hs hr =>
    refine (State.not_settled_of_relinking i ?_ h).elim
    rw [entry_of_table_set s _ i i _ rfl, if_pos rfl]
    rfl
  | checking i hs hr ha hpres =>
    refine (State.not_settled_of_relinking i ?_ h).elim
    rw [State.checkAsked_rest, entry_of_table_set s _ i i _ rfl, if_pos rfl]
    rfl
  | submitted i content hs hu hc => exact h.of_withEntry (s := s) i rfl rfl rfl id
  | gathered absent settle hg => exact (State.not_settled_of_running rfl h).elim
  | started tick ha => exact (State.not_settled_of_gather rfl h).elim
  | _ => exact h

/-! ### The rule of every moment -/

theorem CampaignKept.stable : Stable (fun s => CampaignKept s ∧ ¬ s.settled) CampaignKept where
  weaken h := h.1
  move m h := ⟨h.1.move m, fun hs => h.2 (m.settled hs)⟩
  moveWeak m h := h.move m
  shift f h := h.shift f
  settle h := h.settle

theorem State.Fresh.dueIn {s : State} {i : Index} {e : Entry} (h : s.Fresh i e) (c : Campaign) : e.DueIn c := by
  rw [h.rest]
  exact .of_none rfl nofun nofun fun _ => rfl

theorem Entry.dueIn_pending {s : State} {e : Entry}
    (hc : s.relink.campaign ≠ .steady) :
    Entry.DueIn { e with state := .pending, deadline := s.pendingDeadline e.role } s.relink.campaign where
  deadline := by
    show (if e.role = .far ∧ s.relink.campaign = .contend then _ else none : Option Nat).isSome = true ↔ _
    split
    · next hr => exact ⟨fun _ => .inr ⟨rfl, hr⟩, fun _ => rfl⟩
    · next hr => exact ⟨nofun, fun hd => hd.elim nofun fun hd => absurd hd.2 hr⟩
  steady hs := absurd hs hc

theorem CampaignKept.invariant : Invariant (fun s => CampaignKept s ∧ ¬ s.settled) where
  effects := CampaignKept.stable.effects
  placed {s t} p h := by
    obtain ⟨h, hn⟩ := h
    cases p with
    | unlit i e hf hc hl =>
      exact ⟨h.withEntry hf.active i (hf.dueIn _), State.not_settled_of_steady hc⟩
    | asked i e hf hc hp =>
      refine ⟨(h.withEntry hf.active i (hf.dueIn _)).checkAsked i, State.not_settled_of_steady ?_⟩
      rw [State.checkAsked_rest]
      exact hc
    | relinking i e hf hc =>
      refine ⟨h.withEntry hf.active i (Entry.dueIn_pending hc), State.not_settled_of_relinking i ?_⟩
      rw [entry_of_table_set s _ i i _ rfl, if_pos rfl]
      rfl
  emptied {i s t} e h := by
    obtain ⟨h, hn⟩ := h
    have ht := h.timers
    cases e with
    | failed hs =>
      have ha := h.config.active_of_entry (i := i) (by rw [hs]; nofun)
      have hk := h.withEntry ha i (Entry.cleared_dueIn _)
      refine ⟨{ hk with config := .of_active ha }, fun hset => hn (hset.of_withEntry (s := s) i rfl rfl rfl fun hr => ?_)⟩
      rw [hs] at hr
      cases hr
    | standing hs =>
      have ha := h.active hs
      have hk := (h.withEntry ha i (Entry.cleared_dueIn _)).inActive
        (r := { (s.unanswered i).relink with answerTimer := s.timerWithout i }) ha rfl ⟨ht.gather, ht.settle, ht.front⟩
      refine CampaignKept.settle (s := s.takenOut i) ?_
      exact { hk with config := .of_active ha }
  anew s straps power mainOsc window retention :=
    ⟨{ config := {
         steady := fun _ => rfl
         table := fun _ i => by rw [State.anew_entry]
         roll := fun _ => rfl
         lists := fun _ => ⟨rfl, rfl⟩
         units := fun _ => rfl
         delivery := fun _ => ⟨rfl, rfl⟩
         silent := fun _ => ⟨rfl, rfl, rfl⟩ }
       timers := ⟨⟨nofun, nofun⟩, ⟨fun _ => nofun, fun _ => rfl⟩, fun _ => rfl⟩
       figure := fun _ => rfl
       entries := fun i => by rw [State.anew_entry]; exact Entry.cleared_dueIn _ }, State.not_settled_of_steady rfl⟩
  queue l h := ⟨{ h.1 with config := { h.1.config with } }, h.2⟩

/-- Settles O55: each move keeps the timers, M and the deadlines with the campaign, and the campaign ends wherever a
command has moved an entry out of relinking or the settle timer has run out. -/
theorem stepsKeepCampaign : Obligations.StepsKeepCampaign := fun _ t hs h =>
  (campaignKept_iff t).1 (CampaignKept.invariant.step ((campaignKept_iff _).2 hs) h)

end Sys2Proof.Machine

/-! The Slot Switch sound: checks only for entries that wait for one, one each, and drive and samples only for LIVE
entries (O58). -/

namespace Sys2Proof.Machine

/-! ### The check queue and the checkers -/

theorem SlotSwitch.onChecker_iff (w : SlotSwitch) (i : Index) :
    w.onChecker i = true ↔ ∃ (k : Fin 4) (c : Checker), w.checkers[k] = some c ∧ c.index = i := by
  unfold SlotSwitch.onChecker
  rw [List.any_eq_true]
  constructor
  · rintro ⟨k, -, hk⟩
    split at hk
    · next c hc => exact ⟨k, c, hc, by simpa using hk⟩
    · cases hk
  · rintro ⟨k, c, hc, rfl⟩
    exact ⟨k, List.mem_finRange k, by simp only [hc, BEq.rfl]⟩

theorem SlotSwitch.onChecker_false (w : SlotSwitch) (i : Index) :
    w.onChecker i = false ↔ ∀ (k : Fin 4) (c : Checker), w.checkers[k] = some c → c.index ≠ i := by
  rw [← Bool.not_eq_true, w.onChecker_iff]
  exact ⟨fun h k c hc hi => h ⟨k, c, hc, hi⟩, fun h ⟨k, c, hc, hi⟩ => h k c hc hi⟩

theorem SlotSwitch.checking_iff (w : SlotSwitch) (i : Index) :
    w.checking i = true ↔ i ∈ w.checkQueue ∨ w.onChecker i = true := by
  simp [SlotSwitch.checking]

/-- No index is queued or on a checker twice, none at all while LOST, and a frame is timed while PRESENT (R120, R125). -/
structure SlotSwitch.Lined (w : SlotSwitch) : Prop where
  timed : w.timing.isSome = true ↔ w.highway = .present
  lost : w.highway = .lost → w.checkQueue = [] ∧ ∀ k : Fin 4, w.checkers[k] = none
  once : w.checkQueue.Nodup
  apart : ∀ i ∈ w.checkQueue, w.onChecker i = false
  distinct : ∀ (j k : Fin 4) c d, w.checkers[j] = some c → w.checkers[k] = some d → c.index = d.index → j = k

theorem SlotSwitch.checker_set (w : SlotSwitch) (k j : Fin 4) (o : Option Checker) :
    (w.checkers.set k o)[j] = if k = j then o else w.checkers[j] := by
  by_cases h : k = j
  · subst h; simp
  · rw [if_neg h]
    exact Vector.getElem_set_ne _ _ fun e => h (Fin.ext e)

/-- The checkers hold the same indices, be their counts others. -/
theorem SlotSwitch.onChecker_of_indices {w v : SlotSwitch}
    (h : ∀ k : Fin 4, v.checkers[k].map Checker.index = w.checkers[k].map Checker.index) (i : Index) :
    v.onChecker i = w.onChecker i := by
  rw [Bool.eq_iff_iff, v.onChecker_iff, w.onChecker_iff]
  have one : ∀ o : Option Checker, (∃ c, o = some c ∧ c.index = i) ↔ o.map Checker.index = some i := fun o => by
    rw [Option.map_eq_some_iff]
  exact exists_congr fun k => by rw [one, one, h k]

theorem SlotSwitch.checking_of_indices {w v : SlotSwitch} (hq : v.checkQueue = w.checkQueue)
    (h : ∀ k : Fin 4, v.checkers[k].map Checker.index = w.checkers[k].map Checker.index) (i : Index) :
    v.checking i = w.checking i := by
  unfold SlotSwitch.checking
  rw [hq, SlotSwitch.onChecker_of_indices h i]

/-- Counts and arming do not matter. -/
theorem SlotSwitch.Lined.of_indices {w v : SlotSwitch} (hw : w.Lined) (ht : v.timing.isSome = true ↔ v.highway = .present)
    (hl : v.highway = w.highway) (hq : v.checkQueue = w.checkQueue)
    (h : ∀ k : Fin 4, v.checkers[k].map Checker.index = w.checkers[k].map Checker.index) : v.Lined where
  timed := ht
  lost hv := by
    obtain ⟨hqueue, hnone⟩ := hw.lost (hl.symm.trans hv)
    refine ⟨hq.trans hqueue, fun k => ?_⟩
    have := h k
    rw [hnone k] at this
    exact Option.map_eq_none_iff.1 this
  once := by rw [hq]; exact hw.once
  apart i hi := by
    rw [SlotSwitch.onChecker_of_indices h i]
    exact hw.apart i (hq ▸ hi)
  distinct j k c d hc hd hcd := by
    have hj := h j
    have hk := h k
    rw [hc] at hj
    rw [hd] at hk
    obtain ⟨c', hc', hcc⟩ := Option.map_eq_some_iff.1 hj.symm
    obtain ⟨d', hd', hdd⟩ := Option.map_eq_some_iff.1 hk.symm
    exact hw.distinct j k c' d' hc' hd' (hcc.trans (hcd.trans hdd.symm))

theorem SlotSwitch.Lined.inbound {w : SlotSwitch} (h : w.Lined) (x : Vector Byte 64) :
    SlotSwitch.Lined { w with inbound := x } := ⟨h.timed, h.lost, h.once, h.apart, h.distinct⟩

/-- A checker takes the head (R126). -/
theorem SlotSwitch.Lined.fillOne {w : SlotSwitch} (h : w.Lined) (b : Bool) (k : Fin 4) :
    (w.fillOne b k).Lined ∧ ∀ i, (w.fillOne b k).checking i = w.checking i := by
  unfold SlotSwitch.fillOne
  split
  · next i rest hk hq =>
    have hnd : i ∉ rest ∧ rest.Nodup := by simpa [hq] using h.once
    have hoff := (w.onChecker_false i).1 (h.apart i (by rw [hq]; exact List.mem_cons_self))
    have on : ∀ j, SlotSwitch.onChecker { w with checkQueue := rest, checkers := w.checkers.set k (some ⟨i, 0, b⟩) } j = true ↔
        j = i ∨ w.onChecker j = true := fun j => by
      simp only [SlotSwitch.onChecker_iff, SlotSwitch.checker_set]
      constructor
      · rintro ⟨l, c, hc, rfl⟩
        split at hc
        · cases hc; exact .inl rfl
        · exact .inr ⟨l, c, hc, rfl⟩
      · rintro (rfl | ⟨l, c, hc, rfl⟩)
        · exact ⟨k, _, if_pos rfl, rfl⟩
        · refine ⟨l, c, ?_, rfl⟩
          rw [if_neg fun e => by rw [← e, hk] at hc; cases hc]
          exact hc
    refine ⟨⟨h.timed, fun hl => ?_, hnd.2, fun j hj => ?_, fun j l c d hc hd hcd => ?_⟩, fun j => ?_⟩
    · have := (h.lost hl).1
      rw [hq] at this
      cases this
    · rw [← Bool.not_eq_true, on]
      rintro (rfl | hon)
      · exact hnd.1 hj
      · rw [h.apart j (by rw [hq]; exact List.mem_cons_of_mem _ hj)] at hon
        cases hon
    · rw [SlotSwitch.checker_set] at hc hd
      split at hc <;> split at hd
      · next hkj hkl => exact hkj.symm.trans hkl
      · cases hc; exact absurd hcd.symm (hoff l d hd)
      · cases hd; exact absurd hcd (hoff j c hc)
      · exact h.distinct j l c d hc hd hcd
    · rw [Bool.eq_iff_iff, SlotSwitch.checking_iff, SlotSwitch.checking_iff, on, hq, List.mem_cons]
      tauto
  · exact ⟨h, fun _ => rfl⟩
  · exact ⟨h, fun _ => rfl⟩

theorem SlotSwitch.Lined.fill {w : SlotSwitch} (h : w.Lined) (b : Bool) :
    (w.fill b).Lined ∧ ∀ i, (w.fill b).checking i = w.checking i := by
  obtain ⟨h0, e0⟩ := h.fillOne b 0
  obtain ⟨h1, e1⟩ := h0.fillOne b 1
  obtain ⟨h2, e2⟩ := h1.fillOne b 2
  obtain ⟨h3, e3⟩ := h2.fillOne b 3
  exact ⟨h3, fun i => (e3 i).trans ((e2 i).trans ((e1 i).trans (e0 i)))⟩

/-- A checker made idle, or the check withdrawn from the queue and the checkers: the index is checked no more, and every
other as before. -/
theorem SlotSwitch.Lined.without {w v : SlotSwitch} (h : w.Lined) (i : Index) (hh : v.highway = w.highway)
    (ht : v.timing = w.timing) (hq : v.checkQueue = w.checkQueue.filter fun j => j != i)
    (hc : ∀ (k : Fin 4) c, v.checkers[k] = some c ↔ w.checkers[k] = some c ∧ c.index ≠ i) :
    v.Lined ∧ ∀ j, v.checking j = true ↔ w.checking j = true ∧ j ≠ i := by
  have mem : ∀ j, j ∈ v.checkQueue ↔ j ∈ w.checkQueue ∧ j ≠ i := fun j => by simp [hq]
  have on : ∀ j, v.onChecker j = true ↔ w.onChecker j = true ∧ j ≠ i := fun j => by
    rw [v.onChecker_iff, w.onChecker_iff]
    constructor
    · rintro ⟨k, c, hk, rfl⟩
      exact ⟨⟨k, c, ((hc k c).1 hk).1, rfl⟩, ((hc k c).1 hk).2⟩
    · rintro ⟨⟨k, c, hk, rfl⟩, hne⟩
      exact ⟨k, c, (hc k c).2 ⟨hk, hne⟩, rfl⟩
  refine ⟨⟨by rw [ht, hh]; exact h.timed, fun hl => ?_, hq ▸ h.once.filter _, fun j hj => ?_, fun j l c d hcj hdl he => ?_⟩,
    fun j => ?_⟩
  · obtain ⟨hqueue, hnone⟩ := h.lost (hh.symm.trans hl)
    refine ⟨by rw [hq, hqueue]; rfl, fun k => Option.eq_none_iff_forall_ne_some.2 fun c hk => ?_⟩
    have := ((hc k c).1 hk).1
    rw [hnone k] at this
    cases this
  · rw [← Bool.not_eq_true, on]
    rintro ⟨hon, -⟩
    rw [h.apart j ((mem j).1 hj).1] at hon
    cases hon
  · exact h.distinct j l c d ((hc j c).1 hcj).1 ((hc l d).1 hdl).1 he
  · rw [v.checking_iff, w.checking_iff, mem, on]
    tauto

theorem dropChecker_eq_some (i : Index) (o : Option Checker) (c : Checker) :
    dropChecker i o = some c ↔ o = some c ∧ c.index ≠ i := by
  refine ⟨dropChecker_some, ?_⟩
  rintro ⟨rfl, hne⟩
  exact if_neg hne

/-- A withdrawn check stands no more, and every other does (R128). -/
theorem SlotSwitch.Lined.withdraw {w : SlotSwitch} (h : w.Lined) (i : Index) :
    (w.withdraw i).Lined ∧ ∀ j, (w.withdraw i).checking j = true ↔ w.checking j = true ∧ j ≠ i := by
  obtain ⟨hl, hc⟩ := h.without (v := { w with
    checkQueue := w.checkQueue.filter fun j => j != i, checkers := w.checkers.map (dropChecker i) }) i rfl rfl rfl
    fun k c => by
      simp only [Fin.getElem_fin, Vector.getElem_map]
      exact dropChecker_eq_some i _ c
  obtain ⟨hf, he⟩ := hl.fill false
  exact ⟨hf, fun j => by rw [← hc j]; exact (Bool.eq_iff_iff.1 (he j))⟩

theorem SlotSwitch.withdraw_working (w : SlotSwitch) (i : Index) : (w.withdraw i).Working := by
  unfold SlotSwitch.withdraw
  exact SlotSwitch.fill_working _ _

/-- The checker that ends is idle, and takes a head (R126, R127). -/
theorem SlotSwitch.Lined.freed {w : SlotSwitch} (h : w.Lined) (k : Fin 4) (c : Checker) (hk : w.checkers[k] = some c) :
    (SlotSwitch.fill false { w with checkers := w.checkers.set k none }).Lined ∧
      ∀ j, (SlotSwitch.fill false { w with checkers := w.checkers.set k none }).checking j = true ↔
        w.checking j = true ∧ j ≠ c.index := by
  have hq : w.checkQueue = w.checkQueue.filter fun j => j != c.index :=
    (List.filter_eq_self.2 fun j hj => by
      have := (w.onChecker_false j).1 (h.apart j hj) k c hk
      simpa using this.symm).symm
  obtain ⟨hl, hc⟩ := h.without (v := { w with checkers := w.checkers.set k none }) c.index rfl rfl hq fun l d => by
    rw [SlotSwitch.checker_set]
    constructor
    · intro hd
      split at hd
      · cases hd
      · next hne => exact ⟨hd, fun he => hne (h.distinct l k d c hd hk he).symm⟩
    · rintro ⟨hd, hne⟩
      rw [if_neg fun e => hne (by rw [← e, hk] at hd; cases hd; rfl)]
      exact hd
  obtain ⟨hf, he⟩ := hl.fill false
  exact ⟨hf, fun j => by rw [← hc j]; exact (Bool.eq_iff_iff.1 (he j))⟩

/-- Indices that no check stands for join the queue (R121, R125). -/
theorem SlotSwitch.Lined.queued {w v : SlotSwitch} (h : w.Lined) (is : List Index) (hp : v.highway = .present)
    (ht : v.timing.isSome = true) (hq : v.checkQueue = w.checkQueue ++ is) (hc : v.checkers = w.checkers)
    (hnd : is.Nodup) (hn : ∀ i ∈ is, w.checking i = false) (b : Bool) :
    (v.fill b).Lined ∧ ∀ j, (v.fill b).checking j = true ↔ w.checking j = true ∨ j ∈ is := by
  have off : ∀ i ∈ is, i ∉ w.checkQueue ∧ w.onChecker i = false := fun i hi => by
    have := hn i hi
    rw [← Bool.not_eq_true, w.checking_iff, not_or, Bool.not_eq_true] at this
    exact this
  have on : ∀ j, v.onChecker j = w.onChecker j := fun j => SlotSwitch.onChecker_of_indices (fun k => by rw [hc]) j
  have hl : v.Lined := {
    timed := ⟨fun _ => hp, fun _ => ht⟩
    lost := fun hl => by rw [hp] at hl; cases hl
    once := by
      rw [hq, List.nodup_append]
      refine ⟨h.once, hnd, fun i hi j hj => ?_⟩
      rintro rfl
      exact (off i hj).1 hi
    apart := fun i hi => by
      rw [on]
      rw [hq] at hi
      exact (List.mem_append.1 hi).elim (h.apart i) fun hi => (off i hi).2
    distinct := fun j k c d hj hk he => h.distinct j k c d (hc ▸ hj) (hc ▸ hk) he }
  obtain ⟨hf, he⟩ := hl.fill b
  refine ⟨hf, fun j => ?_⟩
  rw [he j, v.checking_iff, w.checking_iff, on, hq, List.mem_append]
  tauto

/-- The Slot Switch of a part that is held or whose highway is lost (R120, R130). -/
theorem SlotSwitch.parked_lined (w : SlotSwitch) (samples : Vector Byte 64) :
    SlotSwitch.Lined { w.parked with outbound := samples } ∧
      ∀ i, SlotSwitch.checking { w.parked with outbound := samples } i = false := by
  have idle : ∀ k : Fin 4, (Vector.replicate 4 (none : Option Checker))[k] = none := fun k => by simp
  have off : ∀ i, SlotSwitch.onChecker { w.parked with outbound := samples } i = false := fun i =>
    (SlotSwitch.onChecker_false _ i).2 fun k c hc => by
      rw [show SlotSwitch.checkers { w.parked with outbound := samples } = Vector.replicate 4 none from rfl, idle k] at hc
      cases hc
  refine ⟨⟨⟨nofun, nofun⟩, fun _ => ⟨rfl, idle⟩, List.nodup_nil, nofun, fun j k c d hc => ?_⟩, fun i => ?_⟩
  · rw [show SlotSwitch.checkers { w.parked with outbound := samples } = Vector.replicate 4 none from rfl, idle j] at hc
    cases hc
  · rw [← Bool.not_eq_true, SlotSwitch.checking_iff, off]
    rintro (h | h) <;> cases h

/-! ### The rule, by block -/

/-- What a check, the highway and the power state have to be for an entry in this state (R101, R120, R121, R128). -/
structure SlotSwitch.Serves (w : SlotSwitch) (running : Bool) (i : Index) (st : EntryState) : Prop where
  waiting : w.checking i = true → st.awaitsCheck
  checked : running = true → st.awaitsCheck → w.checking i = true ∨ (st = .parked ∧ w.highway = .lost)
  driven : running = true → st = .live → w.highway = .present

/-- `SwitchSound`, by block. -/
structure SwitchKept (s : State) : Prop where
  lined : s.switch.Lined
  working : s.switch.Working
  serves : ∀ i, s.switch.Serves s.running i (s.entry i).state
  idle : ∀ c : Fin 64, (∀ i, (s.entry i).state = .live → (s.entry i).channel.toFin ≠ c) →
    s.switch.inbound[c] = Config.idleSample

theorem switchSound_iff (s : State) : SwitchSound s ↔ SwitchKept s where
  mp h := {
    lined := ⟨h.timed, h.lost, h.once, h.apart, h.distinct⟩
    working := h.working
    serves := fun i => ⟨h.waiting i, fun hr => h.checked hr i, fun hr => h.driven hr i⟩
    idle := h.idle }
  mpr h := {
    timed := h.lined.timed
    lost := h.lined.lost
    once := h.lined.once
    apart := h.lined.apart
    distinct := h.lined.distinct
    waiting := fun i => (h.serves i).waiting
    working := h.working
    checked := fun hr i => (h.serves i).checked hr
    driven := fun hr i => (h.serves i).driven hr
    idle := h.idle }

/-- An entry that waits for no check and is not driven. -/
theorem SlotSwitch.Serves.of_quiet {w : SlotSwitch} {running : Bool} {i : Index} {st : EntryState}
    (hc : w.checking i = false) (ha : ¬ st.awaitsCheck) (hl : st ≠ .live) : w.Serves running i st :=
  ⟨fun h => absurd (hc ▸ h) Bool.false_ne_true, fun _ h => absurd h ha, fun _ h => absurd h hl⟩

/-- A Slot Switch that checks the same indices on a highway in the same state. -/
theorem SlotSwitch.Serves.of_same {w v : SlotSwitch} {running : Bool} {i : Index} {st : EntryState}
    (h : w.Serves running i st) (hc : v.checking i = true ↔ w.checking i = true) (hh : v.highway = w.highway) :
    v.Serves running i st where
  waiting hv := h.waiting (hc.1 hv)
  checked hr ha := by rw [hh, hc]; exact h.checked hr ha
  driven hr hl := hh.trans (h.driven hr hl)

/-- The states that neither wait for a check nor are driven. -/
theorem EntryState.quiet {st : EntryState} (h : st ≠ .parked ∧ st ≠ .checking ∧ st ≠ .joining) : ¬ st.awaitsCheck :=
  fun ha => ha.elim h.1 fun ha => ha.elim h.2.1 h.2.2

namespace SwitchKept

theorem of_same {s t : State} (h : SwitchKept s) (ht : t.table = s.table) (hw : t.switch = s.switch)
    (hr : t.running = s.running) : SwitchKept t := by
  have he : ∀ i, t.entry i = s.entry i := fun i => by simp only [State.entry, ht]
  refine ⟨hw ▸ h.lined, hw ▸ h.working, fun i => ?_, fun c hc => ?_⟩
  · rw [hw, hr, he]; exact h.serves i
  · rw [hw]
    exact h.idle c fun i hi => by rw [← he i] at hi ⊢; exact hc i hi

/-- An entry that no check stands for moves between states that neither wait for one nor are driven, or keeps its
state and its line channel. -/
theorem withEntry {s t : State} (h : SwitchKept s) (i : Index) {e : Entry} (ht : t.table = s.table.set i e)
    (hw : t.switch = s.switch) (hr : t.running = s.running)
    (hs : s.switch.Serves s.running i e.state)
    (hl : (s.entry i).state = .live → e.state = .live ∧ e.channel = (s.entry i).channel) : SwitchKept t := by
  have he := fun j => entry_of_table_set s t i j e ht
  refine ⟨hw ▸ h.lined, hw ▸ h.working, fun j => ?_, fun c hc => ?_⟩
  · rw [hw, hr, he]
    split
    · next hij => subst hij; exact hs
    · exact h.serves j
  · rw [hw]
    refine h.idle c fun j hj => ?_
    have := hc j
    rw [he] at this
    split at this
    · next hij =>
      subst hij
      rw [← (hl hj).2]
      exact this (hl hj).1
    · exact this hj

theorem quieted {s : State} (h : SwitchKept s) {i : Index} (hq : ¬ (s.entry i).state.awaitsCheck) :
    s.switch.checking i = false := by
  rw [← Bool.not_eq_true]
  exact fun hc => hq ((h.serves i).waiting hc)

/-- An entry in a state without check or drive moves to another such state. -/
theorem quiet {s t : State} (h : SwitchKept s) (i : Index) {e : Entry} (ht : t.table = s.table.set i e)
    (hw : t.switch = s.switch) (hr : t.running = s.running) (hs : ¬ (s.entry i).state.awaitsCheck)
    (hl : (s.entry i).state ≠ .live) (he : ¬ e.state.awaitsCheck ∧ e.state ≠ .live) : SwitchKept t :=
  h.withEntry i ht hw hr (.of_quiet (h.quieted hs) he.1 he.2) fun hx => absurd hx hl

/-- An entry that leaves its drive and its check behind (R124, R128). -/
theorem without {s t : State} (h : SwitchKept s) (i : Index) {e : Entry} (ht : t.table = s.table.set i e)
    (hw : t.switch = s.switchWithout i) (hr : t.running = s.running)
    (he : ¬ e.state.awaitsCheck ∧ e.state ≠ .live) : SwitchKept t := by
  have hent := fun j => entry_of_table_set s t i j e ht
  obtain ⟨hlined, hcheck⟩ := (h.lined.inbound (s.inboundWithout i)).withdraw i
  refine ⟨by rw [hw]; exact hlined, ?_, fun j => ?_, fun c hc => ?_⟩
  · rw [hw]; exact SlotSwitch.withdraw_working { s.switch with inbound := s.inboundWithout i } i
  · rw [hw, hr, hent]
    split
    · next hij =>
      subst hij
      exact .of_quiet (by rw [← Bool.not_eq_true]; exact fun hc => ((hcheck i).1 hc).2 rfl) he.1 he.2
    · next hij =>
      exact (h.serves j).of_same ((hcheck j).trans ⟨fun hx => hx.1, fun hx => ⟨hx, fun e => hij e.symm⟩⟩)
        (s.switchWithout_highway i)
  · rw [hw]
    show (SlotSwitch.withdraw _ i).inbound[c] = _
    rw [SlotSwitch.withdraw_inbound]
    show (s.inboundWithout i)[c] = _
    have others : ∀ j, j ≠ i → (s.entry j).state = .live → (s.entry j).channel.toFin ≠ c := fun j hij hj => by
      have := hc j
      rw [hent, if_neg hij.symm] at this
      exact this hj
    unfold State.inboundWithout
    split
    · by_cases hic : (s.entry i).channel.toFin = c
      · subst hic; simp
      · have hv : ((s.entry i).channel.toFin : Fin 64).val ≠ c.val := fun e => hic (Fin.ext e)
        rw [Fin.getElem_fin, Vector.getElem_set_ne _ _ hv]
        refine h.idle c fun j hj => ?_
        by_cases hij : j = i
        · rw [hij]; exact hic
        · exact others j hij hj
    · next hi =>
      refine h.idle c fun j hj => ?_
      by_cases hij : j = i
      · rw [hij] at hj; exact absurd hj hi
      · exact others j hij hj

/-- An entry asks for a check while the highway is PRESENT (R101, R107, R109, R125). -/
theorem asked {s t : State} (h : SwitchKept s) (i : Index) {e : Entry} (ht : t.table = s.table.set i e)
    (hw : t.switch = s.switch) (hr : t.running = s.running) (hp : s.switch.highway = .present)
    (hs : ¬ (s.entry i).state.awaitsCheck) (hl : (s.entry i).state ≠ .live) (he : e.state.awaitsCheck) :
    SwitchKept (t.checkAsked i) := by
  have hent := fun j => entry_of_table_set s t i j e ht
  have hn : s.switch.checking i = false := h.quieted hs
  have hq : (t.checkAsked i).switch = SlotSwitch.fill false { s.switch with checkQueue := s.switch.checkQueue ++ [i] } := by
    unfold State.checkAsked
    rw [hw, if_neg (by rw [hn]; nofun)]
  obtain ⟨hlined, hcheck⟩ := h.lined.queued (v := { s.switch with checkQueue := s.switch.checkQueue ++ [i] }) [i] hp
    (h.lined.timed.2 hp) rfl rfl (List.nodup_singleton i) (fun j hj => by rw [List.mem_singleton.1 hj]; exact hn) false
  have rest : t.checkAsked i = { t with switch := (t.checkAsked i).switch } := t.checkAsked_rest i
  rw [rest, hq]
  refine ⟨hlined, SlotSwitch.fill_working _ _, fun j => ?_, fun c hc => ?_⟩
  · show SlotSwitch.Serves _ t.running j (t.entry j).state
    rw [hr, hent]
    split
    · next hij =>
      subst hij
      refine ⟨fun _ => he, fun _ _ => .inl ((hcheck i).2 (.inr (List.mem_singleton.2 rfl))), fun _ hx => ?_⟩
      rcases he with he | he | he <;> (rw [he] at hx; cases hx)
    · next hij =>
      refine (h.serves j).of_same ((hcheck j).trans ⟨fun hx => hx.resolve_right fun hm => ?_, .inl⟩) (SlotSwitch.fill_highway _ _)
      exact hij (List.mem_singleton.1 hm).symm
  · show (SlotSwitch.fill false _).inbound[c] = _
    rw [SlotSwitch.fill_inbound]
    refine h.idle c fun j hj => ?_
    have : (t.entry j).state = .live → (t.entry j).channel.toFin ≠ c := hc j
    rw [hent] at this
    split at this
    · next hij => subst hij; exact absurd hj hl
    · exact this hj

/-- A Slot Switch that checks the same indices, and reads no inbound sample of a channel that no LIVE entry serves. -/
theorem withSwitch {s : State} (h : SwitchKept s) {w : SlotSwitch} (hl : w.Lined) (hw : w.Working)
    (hh : w.highway = s.switch.highway) (hc : ∀ i, w.checking i = s.switch.checking i)
    (hin : ∀ c : Fin 64, w.inbound[c] = s.switch.inbound[c] ∨
      ∃ i, (s.entry i).state = .live ∧ (s.entry i).channel.toFin = c) : SwitchKept { s with switch := w } where
  lined := hl
  working := hw
  serves i := (h.serves i).of_same (by rw [hc]) hh
  idle c hn := by
    rcases hin c with hin | ⟨i, hi, he⟩
    · exact hin.trans (h.idle c hn)
    · exact absurd he (hn i hi)

/-- A parked Slot Switch, with entries that wait for no check but PARKED ones in RUN, and none driven (R120, R130). -/
theorem parked {s t : State} (samples : Vector Byte 64) (hw : t.switch = { s.switch.parked with outbound := samples })
    (hr : t.running = true → ∀ i, ((t.entry i).state.awaitsCheck → (t.entry i).state = .parked) ∧ (t.entry i).state ≠ .live) :
    SwitchKept t := by
  obtain ⟨hlined, hcheck⟩ := s.switch.parked_lined samples
  refine ⟨hw ▸ hlined, ?_, fun i => ⟨fun hc => ?_, fun hrun ha => ?_, fun hrun hl => ?_⟩, fun c _ => ?_⟩
  · rw [hw]; exact fun hq => absurd rfl hq
  · rw [hw, hcheck] at hc; cases hc
  · exact .inr ⟨(hr hrun i).1 ha, by rw [hw]; rfl⟩
  · exact absurd hl (hr hrun i).2
  · rw [hw]
    show (Vector.replicate 64 Config.idleSample)[c] = _
    simp

end SwitchKept

end Sys2Proof.Machine

/-! The Slot Switch sound, move by move (O58). -/

namespace Sys2Proof.Machine

/-! ### A card in CONFIG mode holds no entry, which a WAKE end relies on (R19) -/

def State.Vacant (s : State) : Prop := s.active = false → ∀ i, s.entry i = Entry.cleared

theorem State.Vacant.of_stands {s t : State} (h : s.Vacant) (hs : s.Stands t) (hr : s.Retains t) : t.Vacant := fun ha i => by
  have hf : s.active = false := Bool.eq_false_iff.2 fun hx => by rw [(hr.active hx).1] at ha; cases ha
  have he := h hf i
  rw [(hs i).empty (by rw [he]; rfl)]
  exact he

theorem State.Vacant.of_active {s : State} (h : s.active = true) : s.Vacant := fun ha => by rw [h] at ha; cases ha

/-- Where an entry is held, the part is in ACTIVE mode. -/
theorem State.Vacant.active {s : State} (h : s.Vacant) {i : Index} (hi : (s.entry i).state ≠ .empty) : s.active = true := by
  cases ha : s.active with
  | true => rfl
  | false => exact absurd (by rw [h ha i]; rfl) hi

/-! ### Entries that neither wait for a check nor are driven -/

theorem Entry.atWake_rests (e : Entry) : (e.atWake.state.awaitsCheck → e.atWake.state = .parked) ∧ e.atWake.state ≠ .live := by
  unfold Entry.atWake
  split
  · exact ⟨fun ha => absurd ha (EntryState.quiet ⟨nofun, nofun, nofun⟩), nofun⟩
  · next hs =>
    have hst : ∀ st : EntryState, st.standing = true → e.state ≠ st := fun st ht he => hs (he ▸ ht)
    exact ⟨fun ha => absurd ha (EntryState.quiet ⟨hst _ rfl, hst _ rfl, hst _ rfl⟩), hst _ rfl⟩

theorem Entry.withAbsent_kept (e : Entry) (d : Nat) :
    (e.withAbsent d).state = e.state ∧ (e.withAbsent d).channel = e.channel := by
  unfold Entry.withAbsent
  split <;> exact ⟨rfl, rfl⟩

/-- Once the highway is lost each entry that waited for a check is PARKED, and none is LIVE (R120). -/
theorem Entry.unlit_rests {e : Entry} {w : SlotSwitch} {running : Bool} {i : Index} (h : w.Serves running i e.state)
    (hr : running = true) : ((e.unlit w i).state.awaitsCheck → (e.unlit w i).state = .parked) ∧ (e.unlit w i).state ≠ .live := by
  unfold Entry.unlit
  split
  · exact ⟨fun _ => rfl, nofun⟩
  · next hs =>
    rw [not_or] at hs
    refine ⟨fun ha => ?_, hs.1⟩
    rcases h.checked hr ha with hc | ⟨hp, -⟩
    · rcases ha with ha | ha | ha
      · exact ha
      · exact absurd ⟨hc, .inl ha⟩ hs.2
      · exact absurd ⟨hc, .inr ha⟩ hs.2
    · exact hp

namespace SwitchKept

/-- Entries with the states and the line channels that they had. -/
theorem of_states {s t : State} (h : SwitchKept s)
    (he : ∀ i, (t.entry i).state = (s.entry i).state ∧ (t.entry i).channel = (s.entry i).channel)
    (hw : t.switch = s.switch) (hr : t.running = s.running) : SwitchKept t := by
  refine ⟨hw ▸ h.lined, hw ▸ h.working, fun i => ?_, fun c hn => ?_⟩
  · rw [hw, hr, (he i).1]; exact h.serves i
  · rw [hw]
    refine h.idle c fun i hi => ?_
    have := hn i
    rw [(he i).1, (he i).2] at this
    exact this hi

theorem move {s t : State} (m : Move s t) (h : SwitchKept s) (hv : s.running = false → s.Vacant) : SwitchKept t := by
  cases m with
  | waited u hu =>
    have hs : s.running = _ := s.running_of_power rfl hu.before
    exact h.of_same rfl rfl ((State.running_of_power (s := { s with supply := u }) rfl hu.after).trans hs.symm)
  | held drive retention hr hd => exact .parked (s := s) s.switch.outbound rfl nofun
  | wokenActive t outbound hp hr ha htt =>
    refine .parked (s := s) outbound rfl fun _ i => ?_
    have := (s.entry i).atWake_rests
    simpa [State.entry] using this
  | wokenConfig t outbound hp hr ha htt =>
    refine .parked (s := s) outbound rfl fun _ i => ?_
    have : s.entry i = Entry.cleared := hv ((State.running_eq_false s).2 (by rw [hp]; nofun)) ha i
    show ((s.entry i).state.awaitsCheck → (s.entry i).state = .parked) ∧ (s.entry i).state ≠ .live
    rw [this]
    exact ⟨fun ha => absurd ha (EntryState.quiet ⟨nofun, nofun, nofun⟩), nofun⟩
  | yielded =>
    rw [State.yielded_rest]
    exact h.of_same rfl rfl rfl
  | rolled ha =>
    unfold State.rolled
    split
    · exact h.of_same rfl rfl rfl
    · exact h.of_same rfl rfl rfl
    · exact h
  | dropped c f r hd =>
    rw [State.dropped_rest]
    exact h.of_same rfl rfl rfl
  | recounted i e he =>
    have hst : e.state = (s.entry i).state := by rw [he.rest]
    exact h.withEntry i rfl rfl rfl (by rw [hst]; exact h.serves i) fun hl =>
      ⟨hst.trans hl, by rw [he.rest]⟩
  | returned i misses hs hm =>
    exact h.without i rfl rfl rfl ⟨EntryState.quiet ⟨nofun, nofun, nofun⟩, nofun⟩
  | deferred i misses tick hs hr hm =>
    have hq : ¬ (s.entry i).state.awaitsCheck ∧ (s.entry i).state ≠ .live := by
      rcases hs with hs | hs <;> (rw [hs]; exact ⟨EntryState.quiet ⟨nofun, nofun, nofun⟩, nofun⟩)
    exact h.quiet i rfl rfl rfl hq.1 hq.2 ⟨EntryState.quiet ⟨nofun, nofun, nofun⟩, nofun⟩
  | bidTaken o f b i tick hb hf hs hr =>
    exact h.quiet i rfl rfl rfl (by rw [hs]; exact EntryState.quiet ⟨nofun, nofun, nofun⟩) (by rw [hs]; nofun)
      ⟨EntryState.quiet ⟨nofun, nofun, nofun⟩, nofun⟩
  | checking i hs hr ha hp =>
    exact h.asked (t := s.withEntry i _) i rfl rfl rfl hp (by rw [hs]; exact EntryState.quiet ⟨nofun, nofun, nofun⟩)
      (by rw [hs]; nofun) (.inr (.inl rfl))
  | submitted i content hs hu hcont =>
    exact h.withEntry i rfl rfl rfl (h.serves i) fun hl => ⟨hl, rfl⟩
  | gathered absent settle hg =>
    refine h.of_states (fun i => ?_) rfl rfl
    have := (s.entry i).withAbsent_kept absent
    simpa [State.entry] using this
  | runCounted n hn =>
    exact h.withSwitch ⟨h.lined.timed, h.lined.lost, h.lined.once, h.lined.apart, h.lined.distinct⟩ h.working rfl
      (fun _ => rfl) fun _ => .inl rfl
  | gained frame hr hl =>
    have hnone : ∀ i, s.switch.checking i = false := fun i => by
      obtain ⟨hq, hk⟩ := h.lined.lost hl
      rw [← Bool.not_eq_true, SlotSwitch.checking_iff, s.switch.onChecker_iff, hq]
      rintro (hm | ⟨k, c, hkc, -⟩)
      · cases hm
      · rw [hk k] at hkc; cases hkc
    have hmem : ∀ i, i ∈ s.parkedIndices ↔ (s.entry i).state = .parked := fun i => by
      simp [State.parkedIndices]
    obtain ⟨hlined, hcheck⟩ := h.lined.queued (v := { s.switch with
        highway := .present, runCount := Config.syncRun, missing := 0, timing := some ⟨frame, 0⟩
        checkQueue := s.switch.checkQueue ++ s.parkedIndices }) s.parkedIndices rfl rfl rfl rfl
      ((List.nodup_finRange 64).filter _) (fun i _ => hnone i) true
    refine ⟨hlined, SlotSwitch.fill_working _ _, fun i => ⟨fun hi => ?_, fun _ ha => ?_, fun _ _ => ?_⟩, fun c hn => ?_⟩
    · rcases (hcheck i).1 hi with hi | hi
      · rw [hnone i] at hi; cases hi
      · exact .inl ((hmem i).1 hi)
    · rcases (h.serves i).checked hr ha with hi | ⟨hi, -⟩
      · rw [hnone i] at hi; cases hi
      · exact .inl ((hcheck i).2 (.inr ((hmem i).2 hi)))
    · exact SlotSwitch.fill_highway _ _
    · show (SlotSwitch.fill true _).inbound[c] = _
      rw [SlotSwitch.fill_inbound]
      exact h.idle c hn
  | frameStarted frame missing hp hm =>
    have hidx : ∀ k : Fin 4, (s.switch.startFrame frame).checkers[k].map Checker.index =
        s.switch.checkers[k].map Checker.index := fun k => by
      simp only [SlotSwitch.startFrame, Fin.getElem_fin, Vector.getElem_map, Option.map_map]
      rfl
    refine h.withSwitch (h.lined.of_indices ⟨fun _ => hp, fun _ => rfl⟩ rfl rfl hidx) (fun hq k hk => ?_) rfl
      (SlotSwitch.checking_of_indices rfl hidx) fun _ => .inl rfl
    have := hidx k
    rw [show (s.switch.startFrame frame).checkers[k] = none from hk] at this
    exact h.working hq k (Option.map_eq_none_iff.1 this.symm)
  | slotRun x outbound inbound hx hlt hin =>
    have ht : s.switch.highway = .present := h.lined.timed.1 (by rw [hx]; rfl)
    exact h.withSwitch (h.lined.of_indices ⟨fun _ => ht, fun _ => rfl⟩ rfl rfl fun _ => rfl) h.working rfl
      (fun _ => rfl) hin
  | readingCounted k c hk hlt =>
    have hidx : ∀ j : Fin 4, (s.switch.checkers.set k (some { c with samples := c.samples + 1 }))[j].map Checker.index =
        s.switch.checkers[j].map Checker.index := fun j => by
      rw [SlotSwitch.checker_set]
      split
      · next hkj => subst hkj; rw [hk]; rfl
      · rfl
    refine h.withSwitch (h.lined.of_indices h.lined.timed rfl rfl hidx) (fun hq j hj => ?_) rfl
      (SlotSwitch.checking_of_indices rfl hidx) fun _ => .inl rfl
    have := hidx j
    rw [show (s.switch.checkers.set k (some { c with samples := c.samples + 1 }))[j] = none from hj] at this
    exact h.working hq j (Option.map_eq_none_iff.1 this.symm)
  | _ => exact h.of_same rfl rfl rfl

theorem joinedAs {s : State} (i : Index)
    (hs : (s.entry i).state = .bidding ∨ (s.entry i).state = .pending ∨ (s.entry i).state = .deferred) :
    ¬ (s.entry i).state.awaitsCheck ∧ (s.entry i).state ≠ .live := by
  rcases hs with hs | hs | hs <;> (rw [hs]; exact ⟨EntryState.quiet ⟨nofun, nofun, nofun⟩, nofun⟩)

theorem shift {s t : State} (f : Shift s t) (h : SwitchKept s) : SwitchKept t := by
  cases f with
  | failed i reason far hs => exact h.without i rfl rfl rfl ⟨EntryState.quiet ⟨nofun, nofun, nofun⟩, nofun⟩
  | connected k c hk hs =>
    have hp : s.switch.highway = .present := by
      cases hw : s.switch.highway with
      | present => rfl
      | lost =>
        have := (h.lined.lost hw).2 k
        rw [hk] at this
        cases this
    obtain ⟨hlined, hcheck⟩ := h.lined.freed k c hk
    have hent := fun j => entry_of_table_set s (s.connectedAs c.index) c.index j _ rfl
    refine ⟨hlined, SlotSwitch.fill_working _ _, fun j => ?_, fun x hn => ?_⟩
    · show SlotSwitch.Serves _ s.running j ((s.connectedAs c.index).entry j).state
      rw [hent]
      split
      · next hij =>
        subst hij
        exact ⟨fun hx => absurd rfl ((hcheck _).1 hx).2, fun _ ha => absurd ha (EntryState.quiet ⟨nofun, nofun, nofun⟩),
          fun _ _ => (SlotSwitch.fill_highway _ _).trans hp⟩
      · next hij =>
        exact (h.serves j).of_same ((hcheck j).trans ⟨fun hx => hx.1, fun hx => ⟨hx, fun e => hij e.symm⟩⟩)
          (SlotSwitch.fill_highway _ _)
    · show (SlotSwitch.fill false _).inbound[x] = _
      rw [SlotSwitch.fill_inbound]
      refine h.idle x fun j hj => ?_
      have : ((s.connectedAs c.index).entry j).state = .live → ((s.connectedAs c.index).entry j).channel.toFin ≠ x := hn j
      rw [hent] at this
      split at this
      · next hij => subst hij; exact this rfl
      · exact this hj
  | freed k c hk hs =>
    exact absurd ((h.serves c.index).waiting ((s.switch.checking_iff _).2 (.inr ((s.switch.onChecker_iff _).2 ⟨k, c, hk, rfl⟩)))) hs
  | joined i st late hs hr hst hp =>
    have hq := joinedAs i hs
    exact h.asked (t := s.joinedAs i st late) i rfl rfl rfl hp hq.1 hq.2
      (hst.elim (fun e => .inr (.inr e)) fun e => .inl e)
  | joinedLost i late hs hr hl =>
    have hq := joinedAs i hs
    exact h.withEntry i rfl rfl rfl ⟨fun _ => .inl rfl, fun _ _ => .inr ⟨rfl, hl⟩, nofun⟩ fun hx => absurd hx hq.2
  | parked i hs hl =>
    exact h.withEntry i rfl rfl rfl ⟨fun _ => .inl rfl, fun _ _ => .inr ⟨rfl, hl⟩, nofun⟩ fun hx => by rw [hs] at hx; cases hx
  | highwayLost hr =>
    refine .parked (s := s) s.switch.outbound rfl fun _ i => ?_
    have := Entry.unlit_rests (h.serves i) hr
    simpa [State.entry] using this
  | timedOut tick ht => exact h.of_same rfl rfl rfl

theorem ended {s : State} (h : SwitchKept s) : SwitchKept s.endedAs := h.of_same rfl rfl rfl

end SwitchKept

/-! ### The rule of every moment -/

/-- The rule with the one that a WAKE end in CONFIG mode relies on. -/
theorem SwitchKept.stable : Stable (fun s => SwitchKept s ∧ s.Vacant) (fun s => SwitchKept s ∧ s.Vacant) :=
  .same (fun m h => ⟨h.1.move m fun _ => h.2, h.2.of_stands m.stands m.retains⟩)
    (fun f h => ⟨h.1.shift f, h.2.of_stands f.stands f.retains⟩)
    (fun _ h => ⟨h.1.ended, h.2.of_stands (.of_table rfl) (.of rfl rfl rfl ⟨rfl, rfl⟩ rfl)⟩)

theorem State.Fresh.parked_entry {s : State} {i : Index} {e : Entry} (h : s.Fresh i e) : e.state = .parked := by rw [h.rest]

theorem SwitchKept.invariant : Invariant (fun s => SwitchKept s ∧ s.Vacant) where
  effects := SwitchKept.stable.effects
  placed {s t} p h := by
    obtain ⟨h, -⟩ := h
    have hq : ∀ {i e}, s.Fresh i e → ¬ (s.entry i).state.awaitsCheck ∧ (s.entry i).state ≠ .live := fun hf => by
      rw [hf.empty]
      exact ⟨EntryState.quiet ⟨nofun, nofun, nofun⟩, nofun⟩
    have ha : t.active = true := by
      cases p with
      | unlit i e hf hc hl => exact hf.active
      | asked i e hf hc hp => rw [State.checkAsked_rest]; exact hf.active
      | relinking i e hf hc => exact hf.active
    refine ⟨?_, .of_active ha⟩
    cases p with
    | unlit i e hf hc hl =>
      exact h.withEntry i rfl rfl rfl ⟨fun _ => .inl hf.parked_entry, fun _ _ => .inr ⟨hf.parked_entry, hl⟩,
        fun _ hx => by rw [hf.parked_entry] at hx; cases hx⟩ fun hx => absurd hx (hq hf).2
    | asked i e hf hc hp =>
      exact h.asked (t := s.withEntry i e) i rfl rfl rfl hp (hq hf).1 (hq hf).2 (.inl hf.parked_entry)
    | relinking i e hf hc =>
      exact h.quiet i rfl rfl rfl (hq hf).1 (hq hf).2 ⟨EntryState.quiet ⟨nofun, nofun, nofun⟩, nofun⟩
  emptied {i s t} e h := by
    obtain ⟨h, hv⟩ := h
    have ha : t.active = true := (e.retains.active (hv.active e.entry.1)).1
    have hcl : ¬ Entry.cleared.state.awaitsCheck ∧ Entry.cleared.state ≠ .live :=
      ⟨EntryState.quiet ⟨nofun, nofun, nofun⟩, nofun⟩
    refine ⟨?_, .of_active ha⟩
    cases e with
    | failed hs =>
      exact h.quiet i rfl rfl rfl (by rw [hs]; exact EntryState.quiet ⟨nofun, nofun, nofun⟩) (by rw [hs]; nofun) hcl
    | standing hs =>
      have hk : SwitchKept (s.takenOut i) := h.without i rfl rfl rfl hcl
      by_cases hset : (s.takenOut i).settled
      · rw [State.endIfSettled_of_settled _ hset]; exact hk.ended
      · rw [State.endIfSettled_of_not _ hset]; exact hk
  anew s straps power mainOsc window retention := by
    refine ⟨.parked (s := s.anew straps power mainOsc window retention) (Vector.replicate 64 Config.idleSample) rfl
      fun _ i => ?_, fun _ i => s.anew_entry _ _ _ _ _ i⟩
    rw [State.anew_entry]
    exact ⟨fun ha => absurd ha (EntryState.quiet ⟨nofun, nofun, nofun⟩), nofun⟩
  queue _ h := ⟨h.1.of_same rfl rfl rfl, h.2⟩

/-- Settles O58: checks and drive follow the states of the entries, move by move. -/
theorem stepsKeepSwitch : Obligations.StepsKeepSwitch := fun _ t hs hc h =>
  (switchSound_iff t).2 (SwitchKept.invariant.step ⟨(switchSound_iff _).1 hs, hc.table⟩ h).1

end Sys2Proof.Machine

/-! The part after a cold start (O52), the power events (O4 to O8) and the card reset (O48). -/

namespace Sys2Proof.Machine

/-! ### The part after a cold start -/

/-- The part after a cold start is one set up anew, so it meets every rule that is kept at every moment. -/
theorem Invariant.reset {P : State → Prop} (k : Invariant P) : P State.reset :=
  k.anew State.reset 0 .run true (some 0) true

theorem reset_sound : Sound State.reset := by
  obtain ⟨hconfig, hcampaign, hdeadlines⟩ := (campaignKept_iff _).1 CampaignKept.invariant.reset
  exact {
    range := (inRange_iff _).2 BlocksInRange.invariant.reset
    table := TableSound.invariant.reset
    config := hconfig
    campaign := hcampaign
    deadlines := hdeadlines
    bidding := BiddingSound.invariant.reset
    latch := LatchSound.invariant.reset
    switch := (switchSound_iff _).2 SwitchKept.invariant.reset.1
    units := (unitsSound_iff _).2 UnitsKept.invariant.reset
    frames := (framesSound_iff _).2 FramesKept.invariant.reset }

/-- Settles O52: each rule of every moment holds of a part set up anew, and the values are those of Table 3-3. -/
theorem resetIsSound : Obligations.ResetIsSound :=
  ⟨reset_sound, rfl, rfl, rfl, rfl, rfl, rfl, rfl, rfl, fun i => State.anew_entry State.reset 0 .run true (some 0) true i,
    rfl, rfl, rfl, rfl, rfl, rfl, rfl⟩

/-! ### Power -/

/-- Settles O4: POWER_ON leaves the main oscillator stopped, so the rise is WAKE, and its flag clear, so the WAKE end is a
cold start. -/
theorem powerOnLeadsToColdStart : Obligations.PowerOnLeadsToColdStart := by
  intro s aux aux' straps
  exact ⟨_, _, rfl, rfl, execSupplyUpInHold_of_stopped aux _ rfl rfl, rfl, execWakeEnd_cold aux' straps _ rfl rfl⟩

/-- The abort of R54 at the HOLD entry: the frame had not reached its receipt field, and was SENDING by its phase or by
the operand. -/
theorem parked_drive (buffer : Option TxFrame) (phase : SendPhase) :
    (buffer.map (fun f => SendPhase.later f.phase phase) = some .sending) ↔
      ∃ f, buffer = some f ∧ f.phase ≠ .receipt ∧ phase ≠ .receipt ∧ (f.phase = .sending ∨ phase = .sending) := by
  rw [Option.map_eq_some_iff]
  exact exists_congr fun f => and_congr_right fun _ => SendPhase.later_eq_sending _ _

/-- Settles O5: the HOLD entry in one form, and when the frame on the line is aborted. -/
theorem holdEntryParksEveryBlock : Obligations.HoldEntryParksEveryBlock := by
  intro s phase vretLow hr
  rw [execHoldEntry_eq phase vretLow s hr]
  simp only [parked_drive]
  rfl

theorem execSupplyDownInWake_eq (aux : Nat) (vretLow : Bool) (s : State) (hp : s.supply.power = .wake) :
    exec (.supplyDownInWake aux vretLow) s = .next { s with supply := { s.supply with
      power := .hold, mainOsc := false, upSeen := false, warmup := 0, t := min (s.supply.t + aux) 16777215
      retention := s.supply.retention && !vretLow } } := by
  show execSupplyDownInWake aux vretLow s = _
  rw [execSupplyDownInWake, if_pos hp]
  rfl

theorem execRetentionLoss_eq (s : State) (hp : s.supply.power = .hold) :
    exec .retentionLoss s = .next { s with supply := { s.supply with retention := false } } := by
  show execRetentionLoss s = _
  rw [execRetentionLoss, if_pos hp]
  rfl

theorem execOutageCounterSaturated_eq (s : State) (hp : s.supply.power ≠ .run) :
    exec .outageCounterSaturated s = .next { s with supply := { s.supply with t := 16777215 } } := by
  show execOutageCounterSaturated s = _
  rw [execOutageCounterSaturated, if_neg hp]
  rfl

/-- Settles O6: each event by its own equation. -/
theorem supplyMonitorEvents : Obligations.SupplyMonitorEvents :=
  ⟨fun s aux hp hm => execSupplyUpInHold_of_stopped aux s hp hm, fun s aux hp hm => execSupplyUpInHold_of_running aux s hp hm,
    execMainOscillatorStop_of_down, execMainOscillatorStop_of_up,
    fun s aux low hp => execSupplyDownInWake_eq aux low s hp, execRetentionLoss_eq, execOutageCounterSaturated_eq,
    fun s count hr => execCalibrationWindowEnd_eq count s hr⟩

/-- The entries at a WAKE end in ACTIVE mode (R18). -/
theorem atWake_entry (s t : State) (ht : t.table = s.table.map Entry.atWake) (i : Index) : t.entry i =
    if (s.entry i).state = .empty ∨ (s.entry i).state = .failed then s.entry i
    else { s.entry i with
      state := .pending, late := false, noReceipt := 0, busy := 0, misses := 0, attempt := 0, deadline := none } := by
  have he : t.entry i = (s.entry i).atWake := by simp [State.entry, ht]
  rw [he]
  unfold Entry.atWake
  have hst := EntryState.standing_iff (s.entry i).state
  by_cases h : (s.entry i).state = .empty ∨ (s.entry i).state = .failed
  · rw [if_pos h, if_neg fun hs => by obtain ⟨h1, h2⟩ := hst.1 hs; exact h.elim h1 h2]
  · rw [not_or] at h
    rw [if_neg (not_or.2 h), if_pos (hst.2 h)]

/-- Settles O7: the WAKE end of an ACTIVE part in one form, and each entry after it. -/
theorem warmWakeBeginsCampaign : Obligations.WarmWakeBeginsCampaign := by
  intro s aux straps hp hr ha he
  exact ⟨_, execWakeEnd_active aux straps s hp hr ha he, atWake_entry s _ rfl, rfl⟩

/-- Settles O8: the other two WAKE ends, each in one form. -/
theorem configWakeAndColdStart : Obligations.ConfigWakeAndColdStart :=
  ⟨fun s aux straps hp hr ha he => execWakeEnd_config aux straps s hp hr ha he,
    fun s aux straps hp hr => execWakeEnd_cold aux straps s hp hr⟩

/-! ### The card reset -/

theorem execCardReset_running (s : State) (hr : s.running = true) (hl : s.port.crstLow = false) :
    exec .cardReset s = .next { s.resetPort with port := { s.resetPort.port with crstLow := true } } := by
  show execCardReset s = _
  rw [execCardReset, if_neg (by rw [hl]; nofun), if_pos hr]
  rfl

theorem execCardReset_stopped (s : State) (hr : s.running = false) (hl : s.port.crstLow = false) :
    exec .cardReset s = .next { s with port := { s.port with crstLow := true, crstEdge := true } } := by
  show execCardReset s = _
  rw [execCardReset, if_neg (by rw [hl]; nofun), if_neg (by rw [hr]; nofun)]
  rfl

theorem execCardReset_low (s : State) (hl : s.port.crstLow = true) : exec .cardReset s = .next s := by
  show execCardReset s = _
  rw [execCardReset, if_pos hl]

/-- What latching leaves of the port. -/
theorem CardPort.latching_kept (p : CardPort) (v : LatchItems) :
    p.latching v = { p with latch := (p.latching v).latch, latchPending := (p.latching v).latchPending } := by
  unfold CardPort.latching
  split <;> rfl

/-- Settles O48: a recorded edge is taken as a reset before the rest of the WAKE end. -/
theorem cardResetReachesPortAlone : Obligations.CardResetReachesPortAlone := by
  refine ⟨fun s => ⟨execCardReset_running s, execCardReset_stopped s, execCardReset_low s, rfl⟩,
    fun s aux straps hp hr he => execWakeEnd_of_edge aux straps s hp hr he, fun s aux straps hp hr ha he => ?_⟩
  rw [execWakeEnd_of_edge aux straps s hp hr he]
  refine ⟨_, execWakeEnd_active aux straps _ hp hr ha rfl, ?_⟩
  dsimp only
  rw [CardPort.latching_kept]
  have hm : s.port.mode = .active := by simpa [State.active] using ha
  exact ⟨rfl, rfl, rfl, rfl, rfl, rfl, rfl, rfl, rfl, rfl, rfl, hm, rfl, rfl, rfl⟩

end Sys2Proof.Machine

/-! What a step does with nothing waiting (O2). -/

namespace Sys2Proof.Machine

/-! ### What is due -/

theorem State.biddingEntry_isSome (s : State) : s.biddingEntry.isSome = true ↔ ∃ i, (s.entry i).state = .bidding := by
  unfold State.biddingEntry State.findEntry
  rw [List.find?_isSome]
  exact ⟨fun ⟨i, _, h⟩ => ⟨i, by simpa using h⟩, fun ⟨i, h⟩ => ⟨i, List.mem_finRange i, by simpa using h⟩⟩

theorem State.dueObserved_none (s : State) : s.dueObserved = none ↔ s.line.completed = none := Option.map_eq_none_iff

theorem State.dueOpenBid_none (s : State) :
    s.dueOpenBid = none ↔ ∀ b, s.relink.openBid = some b → s.now < b.tick + s.settings.w := by
  unfold State.dueOpenBid
  cases s.relink.openBid with
  | none => exact ⟨fun _ => nofun, fun _ => rfl⟩
  | some b => simp

theorem State.dueAnswer_none (s : State) : s.dueAnswer = none ↔
    ∀ t, s.relink.answerTimer = some t → (∃ i, (s.entry i).state = .bidding) → s.now < t := by
  rw [← s.biddingEntry_isSome]
  unfold State.dueAnswer
  cases s.relink.answerTimer with
  | none => exact ⟨fun _ => nofun, fun _ => rfl⟩
  | some t =>
    cases s.biddingEntry with
    | none => exact ⟨fun _ _ _ => nofun, fun _ => rfl⟩
    | some i => simp

theorem State.dueGather_none (s : State) : s.dueGather = none ↔
    ∀ t, s.relink.campaign = .gather → s.relink.gatherTimer = some t → s.now < t := by
  unfold State.dueGather
  cases s.relink.campaign with
  | steady => exact ⟨fun _ _ => nofun, fun _ => rfl⟩
  | contend => exact ⟨fun _ _ => nofun, fun _ => rfl⟩
  | gather =>
    cases s.relink.gatherTimer with
    | none => exact ⟨fun _ _ _ => nofun, fun _ => rfl⟩
    | some t => simp

theorem State.dueSettle_none (s : State) :
    s.dueSettle = none ↔ ∀ t, s.relink.settleTimer = .runsOutAt t → s.now < t := by
  unfold State.dueSettle
  cases s.relink.settleTimer with
  | stopped => exact ⟨fun _ _ => nofun, fun _ => rfl⟩
  | runOut => exact ⟨fun _ _ => nofun, fun _ => rfl⟩
  | runsOutAt t => simp

theorem State.dueDeadline_none (s : State) (i : Index) : s.dueDeadline i = none ↔
    ∀ t, (s.entry i).deadline = some t →
      (s.entry i).state = .deferred ∨ ((s.entry i).state = .pending ∧ (s.entry i).role = .far) → s.now < t := by
  unfold State.dueDeadline
  cases (s.entry i).deadline with
  | none => cases (s.entry i).state <;> cases (s.entry i).role <;> exact ⟨fun _ _ => nofun, fun _ => rfl⟩
  | some t => cases (s.entry i).state <;> cases (s.entry i).role <;> simp

theorem State.dueEvent_none (s : State) (hr : s.running = true) : s.dueEvent = none ↔
    s.line.completed = none
    ∧ (∀ b, s.relink.openBid = some b → s.now < b.tick + s.settings.w)
    ∧ (∀ t, s.relink.answerTimer = some t → (∃ i, (s.entry i).state = .bidding) → s.now < t)
    ∧ (∀ i t, (s.entry i).deadline = some t →
        (s.entry i).state = .deferred ∨ ((s.entry i).state = .pending ∧ (s.entry i).role = .far) → s.now < t)
    ∧ (∀ t, s.relink.campaign = .gather → s.relink.gatherTimer = some t → s.now < t)
    ∧ (∀ t, s.relink.settleTimer = .runsOutAt t → s.now < t) := by
  unfold State.dueEvent
  rw [if_pos hr]
  simp only [Option.orElse_eq_none, List.findSome?_eq_none_iff, s.dueObserved_none,
    s.dueOpenBid_none, s.dueAnswer_none, s.dueDeadline_none, s.dueGather_none, s.dueSettle_none, List.mem_finRange,
    true_imp_iff, and_assoc]

/-! ### The time that passes -/

theorem step_of_idle (s : State) (h : s.pending = []) : step s = idle s := by
  unfold step
  rw [h]

theorem step_of_due (s : State) (c : Instr) (h : s.pending = []) (hd : s.dueEvent = some c) : step s = exec c s := by
  rw [step_of_idle s h, idle, hd]

theorem step_of_none (s : State) (h : s.pending = []) (hd : s.dueEvent = none) : step s = .next s.passTime := by
  rw [step_of_idle s h, idle, hd]

theorem State.dueEvent_stopped (s : State) (hr : s.running = false) : s.dueEvent = none := if_neg (by rw [hr]; nofun)

theorem State.passTime_stopped (s : State) (hr : s.running = false) : s.passTime = s.countAux 1 := by
  rw [State.passTime, if_neg (by rw [hr]; nofun), State.tick, if_neg (by rw [hr]; nofun)]

theorem State.passTime_closing (s : State) (hr : s.running = true) (hc : s.line.closing ≠ none) :
    s.passTime = s.onLine ShelfLine.endFrame := by
  rw [State.passTime, if_pos hr, if_pos (Option.isSome_iff_ne_none.2 hc)]

theorem ShelfLine.goesOn_iff (l : ShelfLine) : l.goesOn = true ↔ ∃ f, l.buffer = some f ∧ f.phase ≠ .receipt := by
  unfold ShelfLine.goesOn
  cases l.buffer <;> simp

theorem SlotSwitch.slotsLeft_iff (w : SlotSwitch) : w.slotsLeft = true ↔ ∃ x, w.timing = some x ∧ x.slot < 256 := by
  unfold SlotSwitch.slotsLeft
  cases w.timing with
  | none => simp
  | some x => exact ⟨fun h => ⟨x, rfl, of_decide_eq_true h⟩, fun ⟨_, hx, h⟩ => by cases hx; exact decide_eq_true h⟩

theorem State.passTime_sending (s : State) (hr : s.running = true) (hc : s.line.closing = none) {f : TxFrame}
    (hf : s.line.buffer = some f) (hp : f.phase ≠ .receipt) : s.passTime = s.onLine ShelfLine.goOn := by
  rw [State.passTime, if_pos hr, if_neg (by rw [hc]; nofun), if_pos ((s.line.goesOn_iff).2 ⟨f, hf, hp⟩)]

/-- With nothing on the line that goes on, a highway slot or a tick passes. -/
theorem State.passTime_quiet (s : State) (hr : s.running = true) (hc : s.line.closing = none)
    (hb : ∀ f, s.line.buffer = some f → f.phase = .receipt) :
    s.passTime = if s.switch.slotsLeft then s.passSlot else s.elapse 1 := by
  rw [State.passTime, if_pos hr, if_neg (by rw [hc]; nofun),
    if_neg (fun h => by obtain ⟨f, hf, hp⟩ := (s.line.goesOn_iff).1 h; exact hp (hb f hf)), State.tick, if_pos hr]

/-- Settles O2: what is due, timer by timer, and the time that passes, in the order of `State.passTime`. -/
theorem idleStepTicksOrTakesDueEvent : Obligations.IdleStepTicksOrTakesDueEvent := by
  refine ⟨fun s hq hr => ?_, fun s hq hr hd => ?_, fun s c hq hd => step_of_due s c hq hd, fun s hr => s.dueEvent_none hr⟩
  · rw [step_of_none s hq (s.dueEvent_stopped hr), s.passTime_stopped hr]
    rfl
  · rw [step_of_none s hq hd]
    refine ⟨fun hc => ?_, fun f hc hf => ⟨fun hp => ?_, fun hp => ?_⟩, fun hc hb => ⟨fun x hx hlt hw ht hs => ?_, fun hx => ?_⟩⟩
    · rw [s.passTime_closing hr hc]
      rfl
    · rw [s.passTime_sending hr hc hf (by rw [hp]; nofun), State.onLine, ShelfLine.goOn, hf]
      simp only [hp]
    · rw [s.passTime_sending hr hc hf (by rw [hp]; nofun), State.onLine, ShelfLine.goOn, hf]
      simp only [hp]
    · rw [s.passTime_quiet hr hc hb, if_pos ((s.switch.slotsLeft_iff).2 ⟨x, hx, hlt⟩)]
      exact ⟨_, s.passSlot_passes x.frame x.slot hr hw hx hlt ht hs, rfl⟩
    · rw [s.passTime_quiet hr hc hb, if_neg fun h => by
        obtain ⟨x, hx', hlt⟩ := (s.switch.slotsLeft_iff).1 h
        exact absurd (hx x hx') (Nat.not_le.2 hlt)]
      rfl

end Sys2Proof.Machine

/-! Offer points: which candidate is sent, and what a CARRY packs (O14, O15). -/

namespace Sys2Proof.Machine

/-! ### The most urgent entry (R31) -/

/-- The entry comes before another: the lower key, and among equal keys the lower index (R31). -/
def State.precedes (s : State) (i j : Index) : Prop :=
  (s.entry i).key.toNat < (s.entry j).key.toNat ∨ ((s.entry i).key = (s.entry j).key ∧ i < j)

theorem State.precedes_asymm (s : State) {i j : Index} (h : s.precedes i j) : ¬ s.precedes j i := by
  rintro (hj | ⟨he, hj⟩)
  · rcases h with h | ⟨h, -⟩
    · omega
    · rw [h] at hj; exact Nat.lt_irrefl _ hj
  · rcases h with h | ⟨-, h⟩
    · rw [he] at h; exact Nat.lt_irrefl _ h
    · exact absurd h (Fin.not_lt.2 (Fin.le_of_lt hj))

/-- The better of the best so far and the next index (R31). -/
def State.better (s : State) (p : Index → Bool) (best : Option Index) (i : Index) : Option Index :=
  if p i then
    match best with
    | none => some i
    | some j => if (s.entry i).key.toNat < (s.entry j).key.toNat then some i else some j
  else best

/-- The best of a list of indices: none where none has the property, or else the one that precedes all others that have. -/
def State.IsBest (s : State) (p : Index → Bool) (l : List Index) (best : Option Index) : Prop :=
  (∀ i, best = some i → p i = true) ∧ ∀ j ∈ l, p j = true → ∃ i, best = some i ∧ (j = i ∨ s.precedes i j)

theorem State.IsBest.next {s : State} {p : Index → Bool} {l : List Index} {best : Option Index} (h : s.IsBest p l best)
    (hin : ∀ i, best = some i → i ∈ l) {k : Index} (hk : ∀ j ∈ l, j < k) :
    s.IsBest p (l ++ [k]) (s.better p best k) ∧ ∀ i, s.better p best k = some i → i ∈ l ++ [k] := by
  unfold State.better
  by_cases hp : p k = true
  · rw [if_pos hp]
    cases best with
    | none =>
      refine ⟨⟨fun i hi => by cases hi; exact hp, fun j hj hpj => ?_⟩, fun i hi => by cases hi; simp⟩
      rcases List.mem_append.1 hj with hj | hj
      · obtain ⟨i, hi, -⟩ := h.2 j hj hpj
        cases hi
      · exact ⟨k, rfl, .inl (List.mem_singleton.1 hj)⟩
    | some m =>
      have hm := h.1 m rfl
      have hmk := hk m (hin m rfl)
      dsimp only
      split
      · next hlt =>
        refine ⟨⟨fun i hi => by cases hi; exact hp, fun j hj hpj => ⟨k, rfl, ?_⟩⟩, fun i hi => by cases hi; simp⟩
        rcases List.mem_append.1 hj with hj | hj
        · obtain ⟨i, hi, hij⟩ := h.2 j hj hpj
          cases hi
          rcases hij with rfl | hij | ⟨he, -⟩
          · exact .inr (.inl hlt)
          · exact .inr (.inl (Nat.lt_trans hlt hij))
          · exact .inr (.inl (he ▸ hlt))
        · exact .inl (List.mem_singleton.1 hj)
      · next hle =>
        refine ⟨⟨fun i hi => by cases hi; exact hm, fun j hj hpj => ?_⟩, fun i hi => by
          cases hi; exact List.mem_append_left _ (hin m rfl)⟩
        rcases List.mem_append.1 hj with hj | hj
        · exact h.2 j hj hpj
        · rw [List.mem_singleton.1 hj]
          refine ⟨m, rfl, .inr ?_⟩
          rcases Nat.lt_or_eq_of_le (Nat.not_lt.1 hle) with hlt | heq
          · exact .inl hlt
          · exact .inr ⟨BitVec.eq_of_toNat_eq heq, hmk⟩
  · rw [if_neg hp]
    refine ⟨⟨h.1, fun j hj hpj => ?_⟩, fun i hi => List.mem_append_left _ (hin i hi)⟩
    rcases List.mem_append.1 hj with hj | hj
    · exact h.2 j hj hpj
    · rw [List.mem_singleton.1 hj] at hpj
      exact absurd hpj hp

theorem State.isBest_foldl (s : State) (p : Index → Bool) (l : List Index) (hl : l.Pairwise (· < ·)) :
    s.IsBest p l (l.foldl (s.better p) none) ∧ ∀ i, l.foldl (s.better p) none = some i → i ∈ l := by
  induction l using List.reverseRecOn with
  | nil => exact ⟨⟨nofun, nofun⟩, nofun⟩
  | append_singleton l k ih =>
    rw [List.pairwise_append] at hl
    obtain ⟨hl, -, hk⟩ := hl
    obtain ⟨hb, hin⟩ := ih hl
    rw [List.foldl_append]
    exact hb.next hin fun j hj => hk j hj k (List.mem_singleton.2 rfl)

theorem State.bestEntry_isBest (s : State) (p : Index → Bool) : s.IsBest p (List.finRange 64) (s.bestEntry p) :=
  (s.isBest_foldl p (List.finRange 64) (List.pairwise_lt_finRange 64)).1

/-- The entry found is the one with the property that precedes all others that have it. -/
theorem State.bestEntry_eq_some (s : State) (p : Index → Bool) (i : Index) :
    s.bestEntry p = some i ↔ p i = true ∧ ∀ j, p j = true → j ≠ i → s.precedes i j := by
  obtain ⟨hp, hbest⟩ := s.bestEntry_isBest p
  constructor
  · intro h
    refine ⟨hp i h, fun j hj hne => ?_⟩
    obtain ⟨k, hk, hkj⟩ := hbest j (List.mem_finRange j) hj
    rw [h] at hk
    cases hk
    exact hkj.resolve_left hne
  · rintro ⟨hi, hfirst⟩
    obtain ⟨k, hk, hki⟩ := hbest i (List.mem_finRange i) hi
    rw [hk]
    by_cases hne : k = i
    · rw [hne]
    · exact absurd (hki.resolve_left (Ne.symm hne)) (s.precedes_asymm (hfirst k (hp k hk) hne))

theorem State.bestEntry_eq_none (s : State) (p : Index → Bool) (h : ∀ j, p j ≠ true) : s.bestEntry p = none := by
  rw [Option.eq_none_iff_forall_ne_some]
  exact fun i hi => h i ((s.bestEntry_eq_some p i).1 hi).1

/-! ### The candidates (R69) -/

theorem State.maybid_iff (s : State) (i : Index) :
    s.maybid i = true ↔ (s.entry i).state = .pending ∧ (s.entry i).role = .origin := by
  simp [State.maybid]

theorem State.eligible_iff (s : State) (i : Index) : s.eligible i = true ↔ s.mayCarry i := by
  simp [State.eligible, State.mayCarry, EntryState.agreed_iff]

theorem State.biddingEntry_none (s : State) : s.biddingEntry = none ↔ ∀ j, (s.entry j).state ≠ .bidding := by
  unfold State.biddingEntry
  rw [s.findEntry_none]
  exact forall_congr' fun j => by simp

theorem State.bidEntry_eq_some (s : State) (i : Index) : s.bidEntry = some i ↔ s.bidsFirst i := by
  unfold State.bidEntry State.bidsFirst
  split
  · next h =>
    obtain ⟨hc, ho, hn⟩ := h
    rw [s.biddingEntry_none] at hn
    rw [s.bestEntry_eq_some, s.maybid_iff]
    constructor
    · rintro ⟨⟨hs, hr⟩, hfirst⟩
      exact ⟨hc, ho, hn, hs, hr, fun j hsj hrj hne => hfirst j ((s.maybid_iff j).2 ⟨hsj, hrj⟩) hne⟩
    · rintro ⟨-, -, -, hs, hr, hfirst⟩
      refine ⟨⟨hs, hr⟩, fun j hj hne => ?_⟩
      obtain ⟨hsj, hrj⟩ := (s.maybid_iff j).1 hj
      exact hfirst j hsj hrj hne
  · next h =>
    exact ⟨nofun, fun ⟨hc, ho, hn, _⟩ => absurd ⟨hc, ho, (s.biddingEntry_none).2 hn⟩ h⟩

theorem State.carryEntry_eq_some (s : State) (i : Index) : s.carryEntry = some i ↔ s.carriesFirst i := by
  unfold State.carryEntry State.carriesFirst
  rw [s.bestEntry_eq_some, s.eligible_iff]
  exact and_congr_right fun _ => forall_congr' fun j => by rw [s.eligible_iff]; rfl

/-- An offer point finds the same items and entries. -/
theorem State.atOfferPoint_candidates (s : State) : s.atOfferPoint.answerCandidate = s.answerCandidate
    ∧ s.atOfferPoint.rollCandidate = s.rollCandidate ∧ s.atOfferPoint.dropCandidate = s.dropCandidate
    ∧ s.atOfferPoint.bidCandidate = s.bidCandidate := ⟨rfl, rfl, rfl, rfl⟩

theorem State.atOfferPoint_active (s : State) : s.atOfferPoint.active = s.active := by
  simp only [State.atOfferPoint, State.active, CardPort.latching_mode]

theorem State.atOfferPoint_mayOffer (s : State) : s.atOfferPoint.mayOffer = (s.running && s.active && !s.line.silenced) := by
  unfold State.mayOffer
  rw [s.atOfferPoint_active]
  show (s.running && s.active && !s.line.silenced && !false) = _
  simp

theorem State.selection_of_offers (s : State) (h : s.mayOffer = true) : s.selection =
    ((((s.answerCandidate <|> s.rollCandidate) <|> s.dropCandidate) <|> s.bidCandidate) <|> s.carryCandidate) := if_pos h

theorem State.mayOffer_of (s : State) (hr : s.running = true) (ha : s.active = true) (hs : s.line.silenced = false) :
    s.atOfferPoint.mayOffer = true := by
  rw [s.atOfferPoint_mayOffer, hr, ha, hs]
  rfl

/-! ### What is sent -/

/-- The frame selected at an offer point goes on the line. -/
theorem execOfferPoint_sends (s : State) (hr : s.running = true) (hb : s.line.buffer = none) {f : TxFrame}
    (h : s.atOfferPoint.selection = some f) : exec .offerPoint s = .next (s.atOfferPoint.send f) := by
  rw [execOfferPoint_eq s hr hb, h]

theorem execOfferPoint_quiet (s : State) (hr : s.running = true) (hb : s.line.buffer = none)
    (h : s.atOfferPoint.selection = none) : exec .offerPoint s = .next s.atOfferPoint := by
  rw [execOfferPoint_eq s hr hb, h]

theorem State.selection_of_silent (s : State) (h : s.active = false ∨ s.line.silenced = true) :
    s.atOfferPoint.selection = none := by
  refine if_neg ?_
  rw [s.atOfferPoint_mayOffer]
  rcases h with h | h <;> simp [h]

/-- Settles O14: the first candidate there is, as `State.selection` has them in order. -/
theorem offerPointTakesFirstCandidate : Obligations.OfferPointTakesFirstCandidate := by
  intro s hr hb
  refine ⟨fun h => execOfferPoint_quiet s hr hb (s.selection_of_silent h), fun ha hs => ?_⟩
  have hsel := s.atOfferPoint.selection_of_offers (s.mayOffer_of hr ha hs)
  obtain ⟨hans, hroll, hdrop, hbid⟩ := s.atOfferPoint_candidates
  rw [hans, hroll, hdrop, hbid] at hsel
  refine ⟨fun a rest hl => ?_, fun hl => ⟨fun k hk => ?_, fun hk => ⟨fun d rest hd => ?_, fun hd i hi => ?_⟩⟩⟩
  · rw [State.answerCandidate, hl] at hsel
    exact execOfferPoint_sends s hr hb hsel
  · rw [State.answerCandidate, hl, State.rollCandidate, hk] at hsel
    exact execOfferPoint_sends s hr hb hsel
  · rw [State.answerCandidate, hl, State.rollCandidate, hk, State.dropCandidate, hd] at hsel
    exact execOfferPoint_sends s hr hb hsel
  · rw [State.answerCandidate, hl, State.rollCandidate, hk, State.dropCandidate, hd, State.bidCandidate,
      (s.bidEntry_eq_some i).2 hi] at hsel
    exact execOfferPoint_sends s hr hb hsel

theorem markUnits_entries (i : Index) (k : Nat) (us : List QueuedUnit) :
    (markUnits i k us).map QueuedUnit.entry = us.map QueuedUnit.entry := by
  induction us generalizing k with
  | nil => cases k <;> rfl
  | cons u us ih =>
    cases k with
    | zero => rfl
    | succ k =>
      unfold markUnits
      split <;> simp [ih]

/-- With no answer, ROLL, drop or BID, the CARRY candidate is selected (R69). -/
theorem State.selection_of_carry (s : State) (hr : s.running = true) (ha : s.active = true)
    (hs : s.line.silenced = false) (hans : s.relink.answers = []) (hroll : s.relink.pendingRoll = none)
    (hdrop : s.relink.drops = []) (hbid : ∀ i, ¬ s.bidsFirst i) :
    s.atOfferPoint.selection = s.atOfferPoint.carryCandidate := by
  have hnone : s.bidEntry = none := Option.eq_none_iff_forall_ne_some.2 fun i hi => hbid i ((s.bidEntry_eq_some i).1 hi)
  obtain ⟨h1, h2, h3, h4⟩ := s.atOfferPoint_candidates
  rw [s.atOfferPoint.selection_of_offers (s.mayOffer_of hr ha hs), h1, h2, h3, h4, State.answerCandidate, hans,
    State.rollCandidate, hroll, State.dropCandidate, hdrop, State.bidCandidate, hnone]
  rfl

/-- Settles O15: the entry that carries first, and its marks. -/
theorem carryPacksOldestUnits : Obligations.CarryPacksOldestUnits := by
  intro s hr hb ha hs hans hroll hdrop hbid
  have hsel := s.selection_of_carry hr ha hs hans hroll hdrop hbid
  have hcarry : s.atOfferPoint.carryEntry = s.carryEntry := rfl
  have hk : s.atOfferPoint.settings.k = s.settings.k := by
    simp only [State.atOfferPoint, State.settings, CardPort.latching_settings]
  refine ⟨fun i hi => ?_, fun hno => ?_⟩
  · rw [State.carryCandidate, hcarry, (s.carryEntry_eq_some i).2 hi] at hsel
    refine ⟨_, execOfferPoint_sends s hr hb hsel, ?_, ?_, fun j hj => ?_, ?_⟩
    · simp only [State.packed, hk]
      rfl
    · show (markUnits i s.atOfferPoint.settings.k s.units).filter (fun u => u.entry == i) = _
      rw [markUnits_filter, if_pos rfl, hk]
      rfl
    · show (markUnits i s.atOfferPoint.settings.k s.units).filter (fun u => u.entry == j) = _
      rw [markUnits_filter, if_neg (Ne.symm hj)]
      rfl
    · exact markUnits_entries _ _ _
  · have hnone : s.carryEntry = none := Option.eq_none_iff_forall_ne_some.2 fun i hi =>
      hno i ((s.carryEntry_eq_some i).1 hi).1
    rw [State.carryCandidate, hcarry, hnone] at hsel
    exact execOfferPoint_quiet s hr hb hsel

end Sys2Proof.Machine

/-! The shelf line's format: bytes and the frame that they spell (O11). -/

namespace Sys2Proof.Machine

/-! ### Bytes and words -/

theorem hiByte_eq (w : BitVec 16) : hiByte w = BitVec.ofNat 8 (w.toNat / 256) := by
  apply BitVec.eq_of_toNat_eq
  simp [hiByte, Nat.shiftRight_eq_div_pow]

theorem loByte_eq (w : BitVec 16) : loByte w = BitVec.ofNat 8 w.toNat := by
  apply BitVec.eq_of_toNat_eq
  simp [loByte]

theorem word16_toNat (hi lo : Byte) : (word16 hi lo).toNat = hi.toNat * 256 + lo.toNat := by
  unfold word16
  rw [BitVec.toNat_append, ← Nat.shiftLeft_add_eq_or_of_lt lo.isLt, Nat.shiftLeft_eq]

theorem hiByte_word16 (hi lo : Byte) : hiByte (word16 hi lo) = hi := by
  have h := hi.isLt
  have l := lo.isLt
  apply BitVec.eq_of_toNat_eq
  rw [hiByte_eq, word16_toNat, BitVec.toNat_ofNat]
  omega

theorem loByte_word16 (hi lo : Byte) : loByte (word16 hi lo) = lo := by
  have l := lo.isLt
  apply BitVec.eq_of_toNat_eq
  rw [loByte_eq, word16_toNat, BitVec.toNat_ofNat]
  omega

theorem word16_bytes (w : BitVec 16) : word16 (hiByte w) (loByte w) = w := by
  apply BitVec.eq_of_toNat_eq
  have := w.isLt
  rw [word16_toNat, hiByte_eq, loByte_eq, BitVec.toNat_ofNat, BitVec.toNat_ofNat]
  omega

theorem figureBytes_eq (x : BitVec 24) :
    figureBytes x = [BitVec.ofNat 8 (x.toNat / 65536), BitVec.ofNat 8 (x.toNat / 256), BitVec.ofNat 8 x.toNat] := by
  unfold figureBytes
  congr 1
  · apply BitVec.eq_of_toNat_eq; simp [Nat.shiftRight_eq_div_pow]
  · congr 1
    · apply BitVec.eq_of_toNat_eq; simp [Nat.shiftRight_eq_div_pow]

theorem append_three_toNat (a b c : Byte) : (a ++ b ++ c : BitVec 24).toNat = a.toNat * 65536 + b.toNat * 256 + c.toNat := by
  rw [BitVec.toNat_append, ← Nat.shiftLeft_add_eq_or_of_lt c.isLt, BitVec.toNat_append,
    ← Nat.shiftLeft_add_eq_or_of_lt b.isLt, Nat.shiftLeft_eq, Nat.shiftLeft_eq]
  omega

theorem figureBytes_append (a b c : Byte) : figureBytes (a ++ b ++ c) = [a, b, c] := by
  have ha := a.isLt
  have hb := b.isLt
  have hc := c.isLt
  rw [figureBytes_eq, append_three_toNat]
  congr 1
  · apply BitVec.eq_of_toNat_eq; simp; omega
  · congr 1
    · apply BitVec.eq_of_toNat_eq; simp; omega
    · congr 1
      apply BitVec.eq_of_toNat_eq; simp; omega

/-- The three bytes of a figure spell it (R28). -/
theorem figure_of_bytes (x : BitVec 24) :
    (x.extractLsb' 16 8 ++ x.extractLsb' 8 8 ++ x.extractLsb' 0 8 : BitVec 24) = x := by
  apply BitVec.eq_of_toNat_eq
  have := x.isLt
  rw [append_three_toNat]
  simp [Nat.shiftRight_eq_div_pow]
  omega

/-! ### Codes -/

theorem rollKindOf_eq_some (b : Byte) (k : RollKind) : rollKindOf b = some k ↔ b = RollKind.code k := by
  unfold rollKindOf
  constructor
  · intro h
    have := List.find?_some h
    exact (by simpa using this : RollKind.code k = b).symm
  · rintro rfl
    cases k <;> decide

theorem verdictOf_eq_some (b : Byte) (v : Verdict) : verdictOf b = some v ↔ b = Verdict.code v := by
  unfold verdictOf
  constructor
  · intro h
    have := List.find?_some h
    exact (by simpa using this : Verdict.code v = b).symm
  · rintro rfl
    cases v <;> decide

theorem dropReasonOf_eq_some (b : Byte) (r : DropReason) : dropReasonOf b = some r ↔ b = DropReason.code r := by
  unfold dropReasonOf
  constructor
  · intro h
    have := List.find?_some h
    exact (by simpa using this : DropReason.code r = b).symm
  · rintro rfl
    cases r <;> decide

theorem setWidth_slotByte (c : CardSlot) : (slotByte c).setWidth 5 = c := by
  apply BitVec.eq_of_toNat_eq
  have := c.isLt
  simp [slotByte]

theorem slotByte_toNat (c : CardSlot) : (slotByte c).toNat = c.toNat := by
  have := c.isLt
  simp [slotByte]
  omega

theorem slotByte_setWidth (b : Byte) (h : b.toNat < 32) : slotByte (b.setWidth 5) = b := by
  apply BitVec.eq_of_toNat_eq
  have := b.isLt
  simp [slotByte]
  omega

theorem readDest_eq_some (b : Byte) (d : Destination) : readDest b = some d ↔ b = destByte d := by
  unfold readDest
  cases d with
  | every =>
    by_cases h : b = 0x3F
    · simp [h, destByte]
    · simp only [h, if_false, destByte, iff_false]
      split <;> nofun
  | card slot =>
    have hs := slot.isLt
    constructor
    · intro h
      split at h
      · cases h
      · split at h
        · next hlt => cases h; exact (slotByte_setWidth b hlt).symm
        · cases h
    · rintro rfl
      have hn : slotByte slot ≠ 0x3F := fun he => by
        have := congrArg BitVec.toNat he
        rw [slotByte_toNat] at this
        exact absurd hs (by rw [this]; decide)
      show (if slotByte slot = 0x3F then _ else if (slotByte slot).toNat < 32 then _ else _) = _
      rw [if_neg hn, if_pos (by rw [slotByte_toNat]; exact hs)]
      exact congrArg _ (congrArg _ (setWidth_slotByte slot))

/-! ### The units of a CARRY -/

theorem readUnits_eq_some (n : Nat) (bs : List Byte) (us : List SignalUnit) : readUnits n bs = some us ↔
    us.length = n ∧ bs = us.flatMap unitBytes ∧ ∀ u ∈ us, 1 ≤ u.content.length ∧ u.content.length ≤ 8 := by
  induction n generalizing bs us with
  | zero =>
    cases bs with
    | nil =>
      constructor
      · intro h; cases h; exact ⟨rfl, rfl, nofun⟩
      · rintro ⟨hl, -, -⟩
        rw [List.length_eq_zero_iff.1 hl]
        rfl
    | cons b bs =>
      constructor
      · intro h; cases h
      · rintro ⟨hl, hb, -⟩
        rw [List.length_eq_zero_iff.1 hl] at hb
        cases hb
  | succ n ih =>
    constructor
    · intro h
      match bs, h with
      | sequence :: len :: rest, h =>
        unfold readUnits at h
        split at h
        · next hlen =>
          obtain ⟨vs, hv, rfl⟩ := Option.map_eq_some_iff.1 h
          obtain ⟨hl, hrest, hall⟩ := (ih _ _).1 hv
          have htake : (rest.take len.toNat).length = len.toNat := by rw [List.length_take]; omega
          refine ⟨by rw [List.length_cons, hl], ?_, fun u hu => ?_⟩
          · rw [List.flatMap_cons, ← hrest]
            show _ = sequence :: byteOf (rest.take len.toNat).length :: (rest.take len.toNat ++ rest.drop len.toNat)
            rw [htake, List.take_append_drop]
            congr 2
            exact BitVec.eq_of_toNat_eq (by simp [byteOf])
          · rcases List.mem_cons.1 hu with rfl | hu
            · exact ⟨by rw [htake]; exact hlen.1, by rw [htake]; exact hlen.2.1⟩
            · exact hall u hu
        · cases h
      | [], h => cases h
      | [_], h => cases h
    · rintro ⟨hl, rfl, hall⟩
      cases us with
      | nil => cases hl
      | cons u us =>
        obtain ⟨h1, h8⟩ := hall u List.mem_cons_self
        have hn : (byteOf u.content.length).toNat = u.content.length := by simp [byteOf]; omega
        rw [List.flatMap_cons]
        show readUnits (n + 1) (u.sequence :: byteOf u.content.length :: (u.content ++ us.flatMap unitBytes)) = _
        unfold readUnits
        rw [hn, if_pos ⟨h1, h8, by rw [List.length_append]; omega⟩, List.drop_left, List.take_left,
          (ih _ us).2 ⟨by simpa using hl, rfl, fun v hv => hall v (List.mem_cons_of_mem _ hv)⟩]
        rfl

/-! ### The body -/

/-- What a byte of the body carries at every value, and what its reader asks of it (R57). -/
def FrameBody.Fits : FrameBody → Prop
  | .roll _ => True
  | .bid b => b.attempt < 256
  | .answer a => a.attempt < 256
  | .drop _ => True
  | .carry c => c.units.length ≤ 4 ∧ ∀ u ∈ c.units, 1 ≤ u.content.length ∧ u.content.length ≤ 8

theorem FrameBody.fits_of_wf {b : FrameBody} (h : b.wf = true) : FrameBody.Fits b := by
  cases b with
  | roll r => trivial
  | bid b => exact Nat.lt_of_le_of_lt ((Bid.wf_iff b).1 h).1.2 (show 3 < 256 by decide)
  | answer a => exact Nat.lt_of_le_of_lt ((Answer.wf_iff a).1 h).1.2 (show 3 < 256 by decide)
  | drop d => trivial
  | carry c =>
    simp only [FrameBody.wf, Carry.wf, Bool.and_eq_true, decide_eq_true_eq, List.all_eq_true] at h
    obtain ⟨⟨⟨-, h4⟩, hall⟩, -⟩ := h
    exact ⟨h4, fun u hu => by simpa [SignalUnit.wf] using hall u hu⟩

theorem readBody_of_fits (b : FrameBody) (h : FrameBody.Fits b) : readBody (kindCode b) (headerKey b) (bodyBytes b) = some b := by
  have at_ : ∀ n : Nat, n < 256 → (byteOf n).toNat = n := fun n hn => by simp [byteOf]; omega
  cases b with
  | roll r =>
    have := (rollKindOf_eq_some _ r.kind).2 rfl
    simp [readBody, kindCode, headerKey, bodyBytes, figureBytes, this, figure_of_bytes]
  | bid b =>
    simp [readBody, kindCode, headerKey, bodyBytes, figureBytes, word16_bytes, figure_of_bytes, at_ _ (show _ < 256 from h)]
  | answer a =>
    have := (verdictOf_eq_some _ a.verdict).2 rfl
    simp [readBody, kindCode, headerKey, bodyBytes, word16_bytes, this, at_ _ (show _ < 256 from h)]
  | drop d =>
    have := (dropReasonOf_eq_some _ d.reason).2 rfl
    simp [readBody, kindCode, headerKey, bodyBytes, word16_bytes, this]
  | carry c =>
    obtain ⟨h4, hall⟩ := h
    have hn := at_ c.units.length (by omega)
    have := (readUnits_eq_some c.units.length _ c.units).2 ⟨rfl, rfl, hall⟩
    simp [readBody, kindCode, headerKey, bodyBytes, word16_bytes, hn, h4, this]

theorem bytes_of_readBody (kind : Byte) (key : Key) (bs : List Byte) (b : FrameBody) (h : readBody kind key bs = some b) :
    kind = kindCode b ∧ key = headerKey b ∧ bs = bodyBytes b := by
  have at_ : ∀ n : Byte, byteOf n.toNat = n := fun n => BitVec.eq_of_toNat_eq (by simp [byteOf])
  unfold readBody at h
  split at h
  · next hk =>
    split at h
    · next k f2 f1 f0 =>
      obtain ⟨x, hx, rfl⟩ := Option.map_eq_some_iff.1 h
      refine ⟨hk.1, hk.2, ?_⟩
      rw [bodyBytes, figureBytes_append, ← (rollKindOf_eq_some _ _).1 hx]
    · cases h
  · split at h
    · next hk =>
      split at h
      · next c1 c0 n p1 p0 f2 f1 f0 =>
        cases h
        refine ⟨hk, rfl, ?_⟩
        simp [bodyBytes, figureBytes_append, hiByte_word16, loByte_word16, at_]
      · cases h
    · split at h
      · next hk =>
        split at h
        · next c1 c0 n v k1 k0 =>
          obtain ⟨x, hx, rfl⟩ := Option.map_eq_some_iff.1 h
          refine ⟨hk.1, hk.2, ?_⟩
          simp [bodyBytes, hiByte_word16, loByte_word16, at_, ← (verdictOf_eq_some _ _).1 hx]
        · cases h
      · split at h
        · next hk =>
          split at h
          · next c1 c0 r =>
            obtain ⟨x, hx, rfl⟩ := Option.map_eq_some_iff.1 h
            refine ⟨hk.1, hk.2, ?_⟩
            simp [bodyBytes, hiByte_word16, loByte_word16, ← (dropReasonOf_eq_some _ _).1 hx]
          · cases h
        · split at h
          · next hk =>
            split at h
            · next c1 c0 n rest =>
              split at h
              · obtain ⟨us, hu, rfl⟩ := Option.map_eq_some_iff.1 h
                obtain ⟨hl, hrest, -⟩ := (readUnits_eq_some _ _ _).1 hu
                refine ⟨hk, rfl, ?_⟩
                simp [bodyBytes, hiByte_word16, loByte_word16, hl, at_, hrest]
              · cases h
            · cases h
          · cases h

/-! ### The frame -/

theorem unitBytes_length (u : SignalUnit) : (unitBytes u).length = u.content.length + 2 := rfl

theorem unitsBytes_length_le (us : List SignalUnit) (h : ∀ u ∈ us, u.content.length ≤ 8) :
    (us.flatMap unitBytes).length ≤ 10 * us.length := by
  induction us with
  | nil => exact Nat.le_refl _
  | cons u us ih =>
    have hu := h u List.mem_cons_self
    have := ih fun v hv => h v (List.mem_cons_of_mem _ hv)
    rw [List.flatMap_cons, List.length_append, unitBytes_length, List.length_cons]
    omega

/-- No body is longer than 43 bytes (R53). -/
theorem bodyBytes_length_le (b : FrameBody) (h : FrameBody.Fits b) : (bodyBytes b).length ≤ 43 := by
  cases b with
  | roll r => exact show 4 ≤ 43 by decide
  | bid b => exact show 8 ≤ 43 by decide
  | answer a => exact show 6 ≤ 43 by decide
  | drop d => exact show 3 ≤ 43 by decide
  | carry c =>
    obtain ⟨h4, hall⟩ := h
    have := unitsBytes_length_le c.units fun u hu => (hall u hu).2
    show (c.units.flatMap unitBytes).length + 3 ≤ 43
    omega

/-- The receiver reads a well-formed frame from its bytes. -/
theorem readFrame_frameBytes (f : Frame) (h : f.wf = true) : readFrame (frameBytes f) = some f := by
  have hbody : f.body.wf = true := by
    simp only [Frame.wf, Bool.and_eq_true] at h
    exact h.2
  have hfits := FrameBody.fits_of_wf hbody
  have hlen : (byteOf (bodyBytes f.body).length).toNat = (bodyBytes f.body).length := by
    have := bodyBytes_length_le f.body hfits
    simp [byteOf]
    omega
  have hsource : (slotByte f.source).toNat < 32 := by rw [slotByte_toNat]; exact f.source.isLt
  show readFrame (kindCode f.body :: hiByte (headerKey f.body) :: loByte (headerKey f.body) :: slotByte f.source ::
    destByte f.dest :: byteOf (bodyBytes f.body).length :: bodyBytes f.body) = _
  unfold readFrame
  dsimp only
  rw [if_pos ⟨hsource, hlen⟩, (readDest_eq_some _ f.dest).2 rfl, word16_bytes, readBody_of_fits f.body hfits,
    setWidth_slotByte]
  exact if_pos h

/-- What the receiver reads is well formed, and those are its bytes. -/
theorem frameBytes_of_readFrame (bs : List Byte) (f : Frame) (h : readFrame bs = some f) :
    f.wf = true ∧ bs = frameBytes f := by
  unfold readFrame at h
  split at h
  · next kind k1 k0 source dest len body =>
    split at h
    · next hs =>
      split at h
      · next d b hd hb =>
        dsimp only at h
        split at h
        · next hwf =>
          cases h
          refine ⟨hwf, ?_⟩
          obtain ⟨hkind, hkey, hbody⟩ := bytes_of_readBody kind _ body b hb
          have hlen : len = byteOf body.length := BitVec.eq_of_toNat_eq (by
            have := len.isLt
            rw [← hs.2]
            simp [byteOf])
          rw [frameBytes, ← hkind, ← hkey, hiByte_word16, loByte_word16, slotByte_setWidth source hs.1,
            ← (readDest_eq_some dest d).1 hd, ← hbody, ← hlen]
          rfl
        · cases h
      · cases h
    · cases h
  · cases h

theorem readFrame_eq_some (bs : List Byte) (f : Frame) : readFrame bs = some f ↔ f.wf = true ∧ bs = frameBytes f :=
  ⟨frameBytes_of_readFrame bs f, fun ⟨hwf, hbs⟩ => hbs ▸ readFrame_frameBytes f hwf⟩

/-- Every kind but a ROLL goes to one card slot (R57, test 4). -/
theorem Frame.wf_iff_card (source : CardSlot) (dest : Destination) (body : FrameBody) (hr : ∀ r, body ≠ .roll r) :
    Frame.wf ⟨source, dest, body⟩ = true ↔ dest ≠ .every ∧ body.wf = true := by
  unfold Frame.wf Frame.destWf
  cases body with
  | roll r => exact absurd rfl (hr r)
  | bid b => cases dest <;> simp
  | answer a => cases dest <;> simp
  | drop d => cases dest <;> simp
  | carry c => cases dest <;> simp

theorem Frame.wf_roll_iff (source : CardSlot) (dest : Destination) (r : Roll) :
    Frame.wf ⟨source, dest, .roll r⟩ = true ↔ dest = .every := by
  cases dest <;> simp [Frame.wf, Frame.destWf, FrameBody.wf]

theorem Drop.wf_iff (d : Drop) : d.wf = true ↔ d.circuit ≠ 0 := by simp [Drop.wf, circuitWf]

theorem Carry.wf_iff (c : Carry) : c.wf = true ↔ 1 ≤ c.units.length ∧ c.units.length ≤ 4
    ∧ (∀ u ∈ c.units, 1 ≤ u.content.length ∧ u.content.length ≤ 8) ∧ c.circuit ≠ 0 := by
  simp [Carry.wf, circuitWf, SignalUnit.wf, and_assoc]

/-- Settles O11: the bytes of each kind, and the reading back of any well-formed frame and no other. -/
theorem frameReadsBack : Obligations.FrameReadsBack := by
  refine ⟨readFrame_eq_some, fun source dest => ?_, fun source dest => ⟨Frame.wf_roll_iff source dest, fun b => ?_,
    fun a => ?_, fun d => ?_, fun c => ?_⟩⟩
  · refine ⟨fun x => ?_, fun x => ?_, fun b => ?_, fun a => ?_, fun d => ?_, fun c => ⟨_, ?_, rfl⟩⟩
    · simp [frameBytes, bodyBytes, figureBytes_eq, kindCode, headerKey, destByte, slotByte, byteOf, RollKind.code]
      decide
    · simp [frameBytes, bodyBytes, figureBytes_eq, kindCode, headerKey, destByte, slotByte, byteOf, RollKind.code]
      decide
    · simp [frameBytes, bodyBytes, figureBytes_eq, kindCode, headerKey, destByte, slotByte, byteOf, hiByte_eq, loByte_eq]
    · cases hv : a.verdict <;>
        simp [frameBytes, bodyBytes, kindCode, headerKey, destByte, slotByte, byteOf, hiByte_eq, loByte_eq, hv, Verdict.code]
    · cases hd : d.reason <;>
        simp [frameBytes, bodyBytes, kindCode, headerKey, destByte, slotByte, byteOf, hiByte_eq, loByte_eq, hd, DropReason.code]
    · have hu : unitBytes = fun u => u.sequence :: BitVec.ofNat 8 u.content.length :: u.content := rfl
      simp [frameBytes, bodyBytes, kindCode, headerKey, destByte, slotByte, byteOf, hiByte_eq, loByte_eq, hu]
  · rw [Frame.wf_iff_card source dest (.bid b) nofun]
    exact and_congr_right fun _ => (Bid.wf_iff b).trans and_assoc
  · rw [Frame.wf_iff_card source dest (.answer a) nofun]
    exact and_congr_right fun _ => (Answer.wf_iff a).trans and_assoc
  · rw [Frame.wf_iff_card source dest (.drop d) nofun]
    exact and_congr_right fun _ => Drop.wf_iff d
  · rw [Frame.wf_iff_card source dest (.carry c) nofun]
    exact and_congr_right fun _ => Carry.wf_iff c

end Sys2Proof.Machine

/-! The receiver bit by bit, and the line's faults (O16). -/

namespace Sys2Proof.Machine

/-! ### One bit (Table 4-5) -/

/-- The counts of a dominant bit (R51, R55). -/
def ShelfLine.low (l : ShelfLine) : ShelfLine :=
  { l with gap := 0, dominant := min (l.dominant + 1) 2001, stuck := l.stuck || decide (2000 < l.dominant + 1) }

/-- The counts of a recessive bit (R51, R55). -/
def ShelfLine.high (l : ShelfLine) : ShelfLine :=
  { l with gap := min (l.gap + 1) 11, dominant := 0, stuck := l.stuck && decide (l.gap < 10) }

theorem ShelfLine.countBit_low (l : ShelfLine) : l.countBit false = l.low := by
  rw [ShelfLine.countBit_eq]
  rfl

theorem ShelfLine.countBit_high (l : ShelfLine) : l.countBit true = l.high := by
  rw [ShelfLine.countBit_eq]
  rfl

theorem ShelfLine.readBit_idle_low (l : ShelfLine) (h : l.receiver = .idle) :
    l.readBit false = { l.low with receiver := if l.gap = 11 then .receiving else .hunt } := by
  simp only [ShelfLine.readBit, h, ShelfLine.countBit_low]
  rfl

theorem ShelfLine.readBit_idle_high (l : ShelfLine) (h : l.receiver = .idle) : l.readBit true = l.high := by
  simp only [ShelfLine.readBit, h, ShelfLine.countBit_high]

theorem ShelfLine.readBit_hunt_low (l : ShelfLine) (h : l.receiver = .hunt) : l.readBit false = l.low := by
  simp only [ShelfLine.readBit, h, ShelfLine.countBit_low]

theorem ShelfLine.readBit_hunt_high (l : ShelfLine) (h : l.receiver = .hunt) :
    l.readBit true = { l.high with receiver := if 10 ≤ l.gap then .idle else .hunt } := by
  have hg : min (l.gap + 1) 11 = 11 ↔ 10 ≤ l.gap := by omega
  simp only [ShelfLine.readBit, h, ShelfLine.countBit_high]
  show { l.high with receiver := if min (l.gap + 1) 11 = 11 then .idle else .hunt } = _
  simp only [hg]

theorem ShelfLine.readBit_receiving_low (l : ShelfLine) (h : l.receiver = .receiving) :
    l.readBit false = { l.low with receiver := if l.inStuffed = true ∧ 5 ≤ l.dominant then .hunt else .receiving } := by
  have hd : (6 ≤ (0 : Nat) ∨ 6 ≤ min (l.dominant + 1) 2001) ↔ 5 ≤ l.dominant := by omega
  simp only [ShelfLine.readBit, h, ShelfLine.countBit_low]
  show { l.low with receiver :=
    if l.inStuffed = true ∧ (6 ≤ (0 : Nat) ∨ 6 ≤ min (l.dominant + 1) 2001) then .hunt else .receiving } = _
  simp only [hd]

theorem ShelfLine.readBit_receiving_high (l : ShelfLine) (h : l.receiver = .receiving) :
    l.readBit true = { l.high with receiver := if l.inStuffed = true ∧ 5 ≤ l.gap then .hunt else .receiving } := by
  have hg : (6 ≤ min (l.gap + 1) 11 ∨ 6 ≤ (0 : Nat)) ↔ 5 ≤ l.gap := by omega
  simp only [ShelfLine.readBit, h, ShelfLine.countBit_high]
  show { l.high with receiver :=
    if l.inStuffed = true ∧ (6 ≤ min (l.gap + 1) 11 ∨ 6 ≤ (0 : Nat)) then .hunt else .receiving } = _
  simp only [hg]

theorem ShelfLine.inStuffed_iff (l : ShelfLine) :
    l.inStuffed = true ↔ l.closing = none ∧ ∀ f, l.buffer = some f → f.phase ≠ .receipt := by
  unfold ShelfLine.inStuffed
  cases l.buffer <;> simp

/-! ### A dominant run (R55) -/

/-- A dominant bit's counts, wherever the receiver is. -/
theorem ShelfLine.readBit_false (l : ShelfLine) : l.readBit false = { l.low with receiver := (l.readBit false).receiver } := by
  cases h : l.receiver with
  | idle => rw [l.readBit_idle_low h]
  | hunt => rw [l.readBit_hunt_low h]
  | receiving => rw [l.readBit_receiving_low h]

/-- So many dominant bits in a row. -/
def ShelfLine.afterLow (l : ShelfLine) (n : Nat) : ShelfLine := (List.replicate n false).foldl ShelfLine.readBit l

theorem ShelfLine.afterLow_succ (l : ShelfLine) (n : Nat) : l.afterLow (n + 1) = (l.readBit false).afterLow n := rfl

theorem ShelfLine.afterLow_counts (l : ShelfLine) (n : Nat) : l.afterLow (n + 1) = { l with
    receiver := (l.afterLow (n + 1)).receiver, gap := 0, dominant := min (l.dominant + (n + 1)) 2001
    stuck := l.stuck || decide (2000 < l.dominant + (n + 1)) } := by
  induction n generalizing l with
  | zero => exact l.readBit_false
  | succ n ih =>
    have hd : min (min (l.dominant + 1) 2001 + (n + 1)) 2001 = min (l.dominant + (n + 1 + 1)) 2001 := by omega
    have hs : (l.stuck || decide (2000 < l.dominant + 1) || decide (2000 < min (l.dominant + 1) 2001 + (n + 1))) =
        (l.stuck || decide (2000 < l.dominant + (n + 1 + 1))) := by
      rw [Bool.or_assoc, ← Bool.decide_or]
      congr 2
      exact propext (by omega)
    rw [ShelfLine.afterLow_succ, ih, l.readBit_false]
    show { l with
      receiver := _, gap := 0, dominant := min (min (l.dominant + 1) 2001 + (n + 1)) 2001
      stuck := l.stuck || decide (2000 < l.dominant + 1) || decide (2000 < min (l.dominant + 1) 2001 + (n + 1)) } = _
    rw [hd, hs]

theorem ShelfLine.afterLow_hunt (l : ShelfLine) (n : Nat) (h : l.receiver = .hunt) : (l.afterLow n).receiver = .hunt := by
  induction n generalizing l with
  | zero => exact h
  | succ n ih =>
    rw [ShelfLine.afterLow_succ]
    exact ih _ (by rw [l.readBit_hunt_low h]; exact h)

/-- Six dominant bits in a row in the stuffed part of a frame leave the receiver in HUNT (R53). -/
theorem ShelfLine.afterLow_receiving (l : ShelfLine) (n : Nat) (h : l.receiver = .receiving) (hs : l.inStuffed = true)
    (hn : 1 ≤ n ∧ 6 ≤ l.dominant + n) : (l.afterLow n).receiver = .hunt := by
  induction n generalizing l with
  | zero => omega
  | succ n ih =>
    rw [ShelfLine.afterLow_succ, l.readBit_receiving_low h]
    by_cases hd : 5 ≤ l.dominant
    · rw [if_pos ⟨hs, hd⟩]
      exact ShelfLine.afterLow_hunt _ n rfl
    · rw [if_neg fun hh => hd hh.2]
      refine ih { l.low with receiver := .receiving } rfl hs ?_
      show 1 ≤ n ∧ 6 ≤ min (l.dominant + 1) 2001 + n
      omega

theorem ShelfLine.afterLow_seven (l : ShelfLine) (n : Nat) (hs : l.inStuffed = true) (hn : 7 ≤ n) :
    (l.afterLow n).receiver = .hunt := by
  cases hr : l.receiver with
  | hunt => exact l.afterLow_hunt n hr
  | receiving => exact l.afterLow_receiving n hr hs (by omega)
  | idle =>
    obtain ⟨m, rfl⟩ : ∃ m, n = m + 1 := ⟨n - 1, by omega⟩
    rw [ShelfLine.afterLow_succ, l.readBit_idle_low hr]
    split
    · refine ShelfLine.afterLow_receiving { l.low with receiver := .receiving } m rfl hs ?_
      show 1 ≤ m ∧ 6 ≤ min (l.dominant + 1) 2001 + m
      omega
    · exact ShelfLine.afterLow_hunt _ m rfl

/-! ### A start gap (R51, R62) -/

/-- The receiver out of a frame after `n + 1` recessive bits. -/
theorem ShelfLine.afterHigh (l : ShelfLine) (n : Nat) (h : l.receiver ≠ .receiving) :
    (List.replicate (n + 1) true).foldl ShelfLine.readBit l = { l with
      receiver := if l.receiver = .idle ∨ 11 ≤ l.gap + (n + 1) then .idle else .hunt
      gap := min (l.gap + (n + 1)) 11, dominant := 0, stuck := l.stuck && decide (l.gap + n < 10) } := by
  induction n with
  | zero =>
    show l.readBit true = _
    cases hr : l.receiver with
    | receiving => exact absurd hr h
    | idle =>
      rw [l.readBit_idle_high hr]
      simp [ShelfLine.high, hr]
    | hunt =>
      rw [l.readBit_hunt_high hr]
      simp [ShelfLine.high]
  | succ n ih =>
    rw [List.replicate_succ', List.foldl_append, ih]
    have hg : min (min (l.gap + (n + 1)) 11 + 1) 11 = min (l.gap + (n + 1 + 1)) 11 := by omega
    have hs : (l.stuck && decide (l.gap + n < 10) && decide (min (l.gap + (n + 1)) 11 < 10)) =
        (l.stuck && decide (l.gap + (n + 1) < 10)) := by
      rw [Bool.and_assoc, ← Bool.decide_and]
      congr 2
      exact propext (by omega)
    by_cases hi : l.receiver = .idle ∨ 11 ≤ l.gap + (n + 1)
    · have hi' : l.receiver = .idle ∨ 11 ≤ l.gap + (n + 1 + 1) := hi.imp_right fun h => by omega
      show ShelfLine.readBit _ true = _
      rw [if_pos hi, if_pos hi', ShelfLine.readBit_idle_high _ rfl]
      simp only [ShelfLine.high, hg, hs]
    · have hi' : (l.receiver = .idle ∨ 11 ≤ l.gap + (n + 1 + 1)) ↔ 10 ≤ min (l.gap + (n + 1)) 11 := by
        rw [not_or] at hi
        constructor
        · rintro (h | h)
          · exact absurd h hi.1
          · omega
        · intro h; right; omega
      show ShelfLine.readBit _ true = _
      rw [if_neg hi, ShelfLine.readBit_hunt_high _ rfl]
      simp only [ShelfLine.high, hg, hs, hi']

/-! ### The faults -/

theorem execFramingFault_of (cause : FramingCause) (gap : Nat) (s : State) (hr : s.running = true)
    (hw : framingWf cause gap = true) : exec (.framingFault cause gap) s = .next (s.framingFault cause gap) := by
  show execFramingFault cause gap s = _
  rw [execFramingFault, if_pos ⟨hr, hw⟩]

theorem execCrcFailure_of (bytes : List Byte) (crc : BitVec 16) (gap : Nat) (s : State) (hr : s.running = true)
    (hg : gap < 11) (hc : crc ≠ crc16 bytes) : exec (.crcFailure bytes crc gap) s = .next (s.hunting gap 1) := by
  show execCrcFailure bytes crc gap s = _
  rw [execCrcFailure, if_pos ⟨hr, decide_eq_true hg, hc.symm⟩, State.toHunt_eq s _ _ hr]

theorem execMalformedFrame_of (bytes : List Byte) (gap : Nat) (s : State) (hr : s.running = true)
    (hg : gap < 11) (hb : readFrame bytes = none) : exec (.malformedFrame bytes gap) s = .next (s.hunting gap 1) := by
  show execMalformedFrame bytes gap s = _
  rw [execMalformedFrame, if_pos ⟨hr, decide_eq_true hg, hb⟩, State.toHunt_eq s _ _ hr]

/-- Settles O16: the receiver's bits one by one and in runs, and each fault by its own equation. -/
theorem lineFaultsDiscardFrames : Obligations.LineFaultsDiscardFrames := by
  refine ⟨fun l => ⟨fun hr hg => ?_, fun hr hg => ?_, l.readBit_idle_high, l.readBit_hunt_low, fun hr hg => ?_,
    fun hr hg => ?_, fun hr hs hd => ?_, fun hr hs hg => ?_, fun hr hd => ?_, fun hr hg => ?_, l.inStuffed_iff⟩,
    fun l n hd => ?_, fun l hs => ?_, fun l hr => ?_, fun s hr => ?_, fun s gap hr hg => ?_, fun s n gap hr hn hg => ?_,
    fun s hr => ?_, fun s bytes crc gap hr hg hc => execCrcFailure_of bytes crc gap s hr hg hc,
    fun s bytes gap hr hg hb => execMalformedFrame_of bytes gap s hr hg ?_⟩
  · rw [l.readBit_idle_low hr, if_pos hg]
    rfl
  · rw [l.readBit_idle_low hr, if_neg hg]
    rfl
  · rw [l.readBit_hunt_high hr, if_pos hg]
    rfl
  · rw [l.readBit_hunt_high hr, if_neg (by omega), ← hr]
    rfl
  · rw [l.readBit_receiving_low hr, if_pos ⟨hs, hd⟩]
    rfl
  · rw [l.readBit_receiving_high hr, if_pos ⟨hs, hg⟩]
    rfl
  · rw [l.readBit_receiving_low hr, if_neg fun h => hd.elim (fun hf => absurd h.1 (by rw [hf]; nofun)) (Nat.not_lt.2 h.2), ← hr]
    rfl
  · rw [l.readBit_receiving_high hr, if_neg fun h => hg.elim (fun hf => absurd h.1 (by rw [hf]; nofun)) (Nat.not_lt.2 h.2), ← hr]
    rfl
  · cases n with
    | zero =>
      have : ¬ 2000 < l.dominant := by omega
      simp [this]
    | succ n =>
      show (l.afterLow (n + 1)).stuck = _
      rw [l.afterLow_counts]
  · show l.afterLow 2001 = _
    rw [l.afterLow_counts 2000, l.afterLow_seven 2001 hs (by omega)]
    have hx : 2000 < l.dominant + (2000 + 1) := by omega
    simp [hx]
  · rw [l.afterHigh 10 hr]
    have hx : ¬ l.gap + 10 < 10 := by omega
    simp [hx]
  · rw [execShelfLineStuck_eq s hr]
    have hp : s.yielded.port = s.port ∧ s.yielded.live = s.live := by rw [s.yielded_rest]; exact ⟨rfl, rfl⟩
    rw [hp.1, hp.2]
    rfl
  · have hw : framingWf .sixEqual gap = true := by
      rcases hg with rfl | rfl <;> rfl
    rw [execFramingFault_of .sixEqual gap s hr hw]
    exact congrArg _ (State.toHunt_eq s _ _ hr)
  · have hw : framingWf (.bodyLength n) gap = true := by
      simp only [framingWf, gapWf, Bool.and_eq_true, decide_eq_true_eq]
      exact ⟨hn, hg⟩
    rw [execFramingFault_of (.bodyLength n) gap s hr hw]
    exact congrArg _ (State.toHunt_eq s _ _ hr)
  · rw [execFramingFault_of .earlyDominant 0 s hr rfl]
    show Host.Outcome.next s.earlyDominant = _
    rw [State.earlyDominant_eq]
    cases hc : s.line.closing with
    | none => rfl
    | some x => rfl
  · exact Option.eq_none_iff_forall_ne_some.2 fun f hf => by
      obtain ⟨hwf, he⟩ := frameBytes_of_readFrame bytes f hf
      exact hb f hwf he.symm

end Sys2Proof.Machine

/-! The observer: what a frame heard, or completed, leaves behind, and the frames that no acting block is handed
(O17, O18). -/

namespace Sys2Proof.Machine

/-! ### The relink records that the observer keeps (R81, R86, R87, R89) -/

theorem RosterRecord.hear_eq (r : RosterRecord) (body : FrameBody) : r.hear body = r.after body := by
  cases body <;> rfl

theorem Verdict.agrees_iff (v : Verdict) : Verdict.agrees v = true ↔ v = .match_ ∨ v = .matchParked := by
  cases v <;> simp [Verdict.agrees]

theorem openBidAfter_eq (o : Option OpenBid) (source : CardSlot) (a : Answer) : openBidAfter o source a =
    if o.any (fun b => b.circuit == a.circuit && b.far == source) then none else o := by
  cases o <;> simp [openBidAfter]

theorem raiseFront_eq (front : Option Key) (key : Key) :
    raiseFront front key = some (front.elim key fun k => if k.toNat < key.toNat then key else k) := by
  cases front with
  | none => rfl
  | some k => exact (apply_ite some (k.toNat < key.toNat) key k).symm

theorem RelinkEngine.observeAnswer_eq (s : State) (source : CardSlot) (a : Answer) :
    s.relink.observeAnswer source a = { s.relink with
      openBid := if s.relink.openBid.any (fun b => b.circuit == a.circuit && b.far == source) then none
        else s.relink.openBid
      front := s.frontAfter a } := by
  unfold RelinkEngine.observeAnswer State.frontAfter
  simp only [openBidAfter_eq, raiseFront_eq, Verdict.agrees_iff]

/-- The observer sets the relink records alone (R81, R87, R89). -/
theorem State.observe_eq (s : State) (f : Frame) : s.observe f = { s with relink := s.observed f } := by
  obtain ⟨source, dest, body⟩ := f
  cases body with
  | bid b => cases dest <;> rfl
  | answer a => exact congrArg (fun r => { s with relink := r }) (RelinkEngine.observeAnswer_eq s source a)
  | roll r => rfl
  | drop d => rfl
  | carry c => rfl

theorem State.observed_campaign (s : State) (f : Frame) : (s.observed f).campaign = s.relink.campaign := by
  unfold State.observed
  split <;> rfl

/-- The observer never runs the settle timer out (R81). -/
theorem State.observed_runOut (s : State) (f : Frame) (h : (s.observed f).settleTimer = .runOut) :
    s.relink.settleTimer = .runOut := by
  unfold State.observed at h
  split at h
  · dsimp only at h
    split at h
    · cases h
    · exact h
  · exact h
  · exact h

/-! ### Passes whose step writes its own entry alone -/

/-- As `State.eachEntry_onEntry`, where the step relies on what the pass keeps. -/
theorem State.eachEntry_onEntry_of (s : State) (K : State → Prop) (f : Index → State → State) (g : Index → Entry → Entry)
    (h0 : K s) (hK : ∀ i t, K t → K (t.onEntry i (g i))) (hf : ∀ i t, K t → f i t = t.onEntry i (g i)) :
    s.eachEntry f = { s with table := Vector.ofFn fun i => g i (s.entry i) } := by
  have kept : ∀ i t, s.TableOnly t ∧ K t → s.TableOnly (f i t) ∧ K (f i t) := fun i t h => by
    rw [hf i t h.2]; exact ⟨h.1.onEntry i _, hK i t h.2⟩
  refine (s.eachEntry_induct (fun t => s.TableOnly t ∧ K t) f ⟨rfl, h0⟩ kept).1.eq_of_entries _ fun i => ?_
  exact s.eachEntry_entry (fun t => s.TableOnly t ∧ K t) f g ⟨rfl, h0⟩ kept
    (fun i t h => by rw [hf i t h.2]; exact t.onEntry_entry_self i _)
    (fun i j t h hij => by rw [hf i t h.2]; exact t.onEntry_entry_other _ hij) i

/-! ### A DEFERRED entry returned (R96) -/

/-- The entry as the return to PENDING leaves it, for the ORIGIN role (R17, R80). -/
def Entry.returned (e : Entry) : Entry :=
  { e with state := .pending, late := false, noReceipt := 0, busy := 0, misses := 0, deadline := none }

/-- A check that does not stand is withdrawn without effect (R128). -/
theorem SlotSwitch.withdraw_of_not_checking (w : SlotSwitch) (i : Index) (hc : w.checking i = false) (hw : w.Working) :
    w.withdraw i = w := by
  have hn : ¬ (i ∈ w.checkQueue ∨ w.onChecker i = true) := by rw [← w.checking_iff, hc]; nofun
  have hq : w.checkQueue.filter (fun j => j != i) = w.checkQueue :=
    List.filter_eq_self.2 fun j hj => bne_iff_ne.2 fun hji => hn (.inl (hji ▸ hj))
  have hk : w.checkers.map (dropChecker i) = w.checkers := Vector.ext fun k hk => by
    rw [Vector.getElem_map]
    cases hx : w.checkers[k] with
    | none => rfl
    | some c => exact if_neg fun hi => hn (.inr ((w.onChecker_iff i).2 ⟨⟨k, hk⟩, c, hx, hi⟩))
  unfold SlotSwitch.withdraw
  rw [hq, hk]
  exact w.fill_of_working false hw

/-- What a state that meets the rules has wherever an entry is DEFERRED (R73, R81, R93, R125). -/
structure State.DefersSoundly (s : State) : Prop where
  campaign : ∀ i, (s.entry i).state = .deferred → s.relink.campaign ≠ .steady
  origin : ∀ i, (s.entry i).state = .deferred → (s.entry i).role = .origin
  unchecked : ∀ i, (s.entry i).state = .deferred → s.switch.checking i = false
  working : s.switch.Working

theorem State.defersSoundly (s : State) (hc : CampaignSound s) (hw : SwitchSound s) (hb : BiddingSound s) :
    s.DefersSoundly where
  campaign i hi hst := by
    have := hc.relinked hst i
    rw [hi] at this
    cases this
  origin i hi := hb.origin i (.inr (.inl hi))
  unchecked i hi := by
    rw [← Bool.not_eq_true]
    intro hch
    have hwait := hw.waiting i hch
    rw [hi] at hwait
    rcases hwait with h | h | h <;> cases h
  working := hw.working

/-- A DEFERRED entry returned writes its entry alone. -/
theorem State.pendingAs_deferred (s : State) (i : Index) (hs : (s.entry i).state = .deferred)
    (hr : (s.entry i).role = .origin) (hc : s.relink.campaign ≠ .steady) (hq : s.switch.checking i = false)
    (hw : s.switch.Working) : s.pendingAs i 0 = s.withEntry i (s.entry i).returned := by
  have hin : s.inboundWithout i = s.switch.inbound := if_neg (by rw [hs]; nofun)
  have hti : s.timerWithout i = s.relink.answerTimer := if_neg (by rw [hs]; nofun)
  have hsw : s.switchWithout i = s.switch := by
    unfold State.switchWithout
    rw [hin]
    exact s.switch.withdraw_of_not_checking i hq hw
  have hdl : (if (s.entry i).role = .far ∧ s.relink.campaign ≠ .gather then some (s.now + s.settings.p) else none) = none :=
    if_neg fun h => by rw [hr] at h; cases h.1
  unfold State.pendingAs
  rw [hsw, hti, hdl, if_neg hc, if_neg hc]
  rfl

/-- An entry that the observer returns for a frame (R96). -/
def State.returnedFor (s : State) (f : Frame) (i : Index) (e : Entry) : Entry :=
  if e.state = .deferred ∧ e.farSlot = f.source ∧ s.actorGoverns f i = false then e.returned else e

/-- The observer's return of the DEFERRED entries, in one form (R96). -/
theorem State.deferredReturn_eq (s : State) (f : Frame) (h : s.DefersSoundly) : s.deferredReturn f =
    { s with table := Vector.ofFn fun i => s.returnedFor f i (s.entry i) } := by
  have same : ∀ i e, (s.returnedFor f i e).state = .deferred → s.returnedFor f i e = e := fun i e he => by
    unfold State.returnedFor at he ⊢
    split
    · next hi => rw [if_pos hi] at he; cases he
    · rfl
  refine s.eachEntry_onEntry_of
    (fun t => s.TableOnly t ∧ ∀ j, (t.entry j).state = .deferred → t.entry j = s.entry j) _ _
    ⟨rfl, fun _ _ => rfl⟩ (fun i t ht => ⟨ht.1.onEntry i _, fun j hj => ?_⟩) fun i t ht => ?_
  · by_cases hij : i = j
    · subst hij
      rw [State.onEntry_entry_self] at hj ⊢
      have := same i _ hj
      rw [this] at hj ⊢
      exact ht.2 i hj
    · rw [State.onEntry_entry_other _ _ hij] at hj ⊢
      exact ht.2 j hj
  · obtain ⟨htab, hdef⟩ := ht
    rw [State.onEntry_eq]
    unfold State.returnedFor
    split
    · next hi =>
      have he := hdef i hi.1
      have hi' : (s.entry i).state = .deferred := by rw [← he]; exact hi.1
      have hrel : t.relink = s.relink := by rw [htab]
      have hsw : t.switch = s.switch := by rw [htab]
      rw [State.moveToPending_eq, State.pendingAs_deferred t i hi.1 (by rw [he]; exact h.origin i hi')
        (by rw [hrel]; exact h.campaign i hi') (by rw [hsw]; exact h.unchecked i hi') (by rw [hsw]; exact h.working)]
      rfl
    · exact (t.withEntry_self i).symm

/-! ### Which entries an acting block governs (R96) -/

theorem State.actsOn_iff (s : State) (f : Frame) : s.actsOn f = true ↔
    s.acts f.source = true ∧ (f.dest = .every ∨ f.dest = .card s.cardSlot) := by
  simp [State.actsOn]

theorem State.actorGoverns_iff (s : State) (f : Frame) (i : Index) (hf : f.wf = true) :
    s.actorGoverns f i = true ↔ s.actorTakes f i := by
  obtain ⟨source, dest, body⟩ := f
  rw [State.actorGoverns, Bool.and_eq_true, State.actsOn_iff]
  unfold State.actorTakes
  cases body with
  | roll r =>
    obtain ⟨kind, figure⟩ := r
    have hd := (Frame.wf_roll_iff source dest _).1 hf
    subst hd
    cases kind <;> simp
  | bid b => simp
  | answer a =>
    have hd := ((Frame.wf_iff_card source dest (.answer a) nofun).1 hf).1
    simp [hd, and_assoc]
  | drop d =>
    have hd := ((Frame.wf_iff_card source dest (.drop d) nofun).1 hf).1
    simp [hd, and_assoc]
  | carry c => simp

/-! ### The end of the campaign, which no observation brings (R81) -/

/-- Entries that relink as they did, and a campaign and a settle timer that the observer has at most restarted. -/
theorem State.settled.of_observed {s t : State} {f : Frame} (h : t.settled) (hr : t.relink.campaign = s.relink.campaign)
    (ht : t.relink.settleTimer = (s.observed f).settleTimer)
    (he : ∀ i, (t.entry i).state.relinking = (s.entry i).state.relinking) : s.settled := by
  obtain ⟨hc, hs, hrel⟩ := h
  exact ⟨hr.symm.trans hc, s.observed_runOut f (ht.symm.trans hs), fun i => by rw [← he i]; exact hrel i⟩

theorem State.returnedFor_relinking (s : State) (f : Frame) (i : Index) (e : Entry) :
    (s.returnedFor f i e).state.relinking = e.state.relinking := by
  unfold State.returnedFor
  split
  · next h => rw [h.1]; rfl
  · rfl

/-! ### Frames heard and completed -/

theorem State.hearing_actorGoverns (s : State) (f : Frame) :
    ((s.hearing f).onRelink fun r => r.hear f).actorGoverns f = s.actorGoverns f := by
  funext i
  have ha : (s.hearing f).active = s.active := by simp only [State.hearing, State.active, CardPort.latching_mode]
  unfold State.actorGoverns State.actsOn State.acts
  rw [State.onRelink_active, ha]
  rfl

theorem State.hearing_observed (s : State) (f : Frame) (t : State)
    (h : t = { s.hearing f with
      table := t.table
      switch := t.switch
      relink := { s.relink with
        roster := s.relink.roster.set f.source.toFin (s.relink.roster[f.source.toFin].after f.body) } }) :
    t.observed f = { s.observed f with
      roster := s.relink.roster.set f.source.toFin (s.relink.roster[f.source.toFin].after f.body) } := by
  have hset : t.settings = s.settings := by rw [h]; exact CardPort.latching_settings _ _
  have hnow : t.now = s.now := by rw [h]; rfl
  have hrel : t.relink = { s.relink with
      roster := s.relink.roster.set f.source.toFin (s.relink.roster[f.source.toFin].after f.body) } := by rw [h]
  have hfront : ∀ a, t.frontAfter a = s.frontAfter a := fun a => by unfold State.frontAfter; rw [hrel]
  obtain ⟨source, dest, body⟩ := f
  unfold State.observed
  cases body with
  | bid b => cases dest <;> simp only [hrel, hset, hnow]
  | answer a => simp only [hrel, hfront]
  | roll r => simp only [hrel]
  | drop d => simp only [hrel]
  | carry c => simp only [hrel]

/-- An intact frame of another card slot, in one form (R62, R81, R86, R87, R89, R96). -/
theorem State.frameHeard_eq (s : State) (f : Frame) (h : f.source ≠ s.cardSlot) (hc : CampaignSound s)
    (hd : s.DefersSoundly) : s.frameHeard f = { s with
      table := Vector.ofFn fun i => s.returnedFor f i (s.entry i)
      line := s.line.heard f
      port := s.port.latching { s.live with stuck := false }
      relink := { s.observed f with
        roster := s.relink.roster.set f.source.toFin (s.relink.roster[f.source.toFin].after f.body)
        arrival := s.arrivalAfter f } } := by
  have hdef : ((s.hearing f).onRelink fun r => r.hear f).DefersSoundly := ⟨hd.campaign, hd.origin, hd.unchecked, hd.working⟩
  have hret : ((s.hearing f).onRelink fun r => r.hear f).returnedFor f = s.returnedFor f := by
    funext i e
    unfold State.returnedFor
    rw [State.hearing_actorGoverns]
  rw [s.frameHeard_of_other f h, State.deferredReturn_eq _ f hdef, hret, State.observe_eq,
    s.hearing_observed f { (s.hearing f).onRelink fun r => r.hear f with
      table := Vector.ofFn fun i => s.returnedFor f i (((s.hearing f).onRelink fun r => r.hear f).entry i) }
      (by rw [← RosterRecord.hear_eq]; rfl), State.endIfSettled_of_not]
  · rfl
  · intro hset
    refine hc.ended (hset.of_observed (f := f) (s.observed_campaign f) rfl fun i => ?_)
    exact (congrArg (fun e : Entry => e.state.relinking) (Vector.getElem_ofFn i.isLt)).trans
      (s.returnedFor_relinking f i _)

theorem exec_frameObserved_heard (s : State) (f : Frame) (hr : s.running = true) (hf : f.wf = true) :
    exec (.frameObserved .heard f) s = .next (s.frameHeard f) := by
  show execFrameObserved .heard f s = _
  unfold execFrameObserved
  rw [hr]
  exact congrArg _ (if_pos hf)

/-- Settles O17: what is heard sets the records, and the DEFERRED entries that no acting block governs return. -/
theorem observerTakesFrameHeard : Obligations.ObserverTakesFrameHeard := by
  intro s f hr hf hsrc hc hw hb
  have governs : ∀ i, s.actorGoverns f i = false ↔ ¬ s.actorTakes f i := fun i => by
    rw [← s.actorGoverns_iff f i hf, Bool.not_eq_true]
  refine ⟨_, by rw [exec_frameObserved_heard s f hr hf, s.frameHeard_eq f hsrc hc (s.defersSoundly hc hw hb)],
    rfl, fun i hs hfar hact => ?_, fun i hn => ?_⟩
  · have : s.returnedFor f i (s.entry i) = (s.entry i).returned := if_pos ⟨hs, hfar, (governs i).2 hact⟩
    exact (Vector.getElem_ofFn i.isLt).trans this
  · have : s.returnedFor f i (s.entry i) = s.entry i := if_neg fun h => hn ⟨h.1, h.2.1, (governs i).1 h.2.2⟩
    exact (Vector.getElem_ofFn i.isLt).trans this

/-! ### This card's own slot, and cards that only observe (R67, R68) -/

theorem State.yielded_observed (s : State) (f : Frame) : (s.yielded.hearingOwn f).observed f = s.observed f := by
  have hset : (s.yielded.hearingOwn f).settings = s.settings := by
    rw [State.yielded_rest]; exact CardPort.latching_settings _ _
  have hrel : (s.yielded.hearingOwn f).relink = s.relink := by rw [State.yielded_rest]; rfl
  have hnow : (s.yielded.hearingOwn f).now = s.now := by rw [State.yielded_rest]; rfl
  have hfront : ∀ a, (s.yielded.hearingOwn f).frontAfter a = s.frontAfter a := fun a => by
    unfold State.frontAfter; rw [hrel]
  unfold State.observed
  simp only [hset, hrel, hnow, hfront]

theorem State.yielded_live (s : State) : s.yielded.live = s.live := by
  unfold State.live
  cases hb : s.line.buffer with
  | none => rw [s.yielded_of_free hb]
  | some x =>
    by_cases hp : x.phase = .receipt
    · rw [s.yielded_of_receipt hb hp]
    · rw [s.yielded_of_sent hb hp]

/-- A frame of this card's own slot, in one form (R67, R81, R87, R89). -/
theorem State.frameHeard_own_eq (s : State) (f : Frame) (hr : s.running = true) (h : f.source = s.cardSlot)
    (hc : CampaignSound s) : s.frameHeard f = { s.yielded with
      line := { s.yielded.line.heard f with silenced := true, receipt := none }
      relink := { s.observed f with arrival := s.arrivalAfter f }
      port := s.port.latching { s.live with clash := true, stuck := false } } := by
  have hport : s.yielded.port = s.port := by rw [State.yielded_rest]
  rw [s.frameHeard_of_own f hr h, State.observe_eq, State.yielded_observed, State.endIfSettled_of_not]
  · unfold State.hearingOwn
    rw [s.yielded_live, hport]
    rfl
  · intro hset
    refine hc.ended (hset.of_observed (f := f) (s.observed_campaign f) rfl fun i => ?_)
    have he : s.yielded.entry i = s.entry i := by rw [State.yielded_rest]; rfl
    exact congrArg (fun e : Entry => e.state.relinking) he

/-- The frame that this card completed last, in one form (R65, R87, R89). -/
theorem State.frameCompleted_eq (s : State) (f : Frame) (hc : CampaignSound s) : s.frameCompleted f = { s with
      line := { s.line with completed := none }, relink := { s.observed f with arrival := .none } } := by
  have hobs : (s.onLine fun l => { l with completed := none }).observed f = s.observed f := rfl
  unfold State.frameCompleted
  rw [State.observe_eq, hobs, State.endIfSettled_of_not]
  · rfl
  · exact fun hset => hc.ended (hset.of_observed (f := f) (s.observed_campaign f) rfl fun i => rfl)

theorem exec_frameObserved_completed (s : State) (f : Frame) (hr : s.running = true) (hf : s.line.completed = some f) :
    exec (.frameObserved .completed f) s = .next (s.frameCompleted f) := by
  show execFrameObserved .completed f s = _
  unfold execFrameObserved
  rw [hr]
  exact congrArg _ (if_pos hf)

theorem exec_frameObserved_completed_of_ne (s : State) (f : Frame) (hf : s.line.completed ≠ some f) :
    exec (.frameObserved .completed f) s = .next s := by
  show execFrameObserved .completed f s = _
  unfold execFrameObserved
  cases s.running with
  | true => exact congrArg _ (if_neg hf)
  | false => rfl

theorem execCarryReceived_of_not (source : CardSlot) (c : Carry) (s : State)
    (h : ¬ (s.acts source = true ∧ c.wf = true)) : exec (.carryReceived source c) s = .next s := by
  show execCarryReceived source c s = _
  rw [execCarryReceived, if_neg h]

theorem State.dueEvent_completed (s : State) (f : Frame) (hr : s.running = true) (hf : s.line.completed = some f) :
    s.dueEvent = some (.frameObserved .completed f) := by
  unfold State.dueEvent State.dueObserved
  rw [if_pos hr, hf]
  rfl

/-- Settles O18: a slot clash, the frame completed last, and the cards that hand no frame to an acting block. -/
theorem silencedCardsOnlyObserve : Obligations.SilencedCardsOnlyObserve := by
  refine ⟨fun s f hr hf hown hc => ?_, fun s f hr hf hc => ?_, exec_frameObserved_completed_of_ne, fun s source h => ?_⟩
  · exact ⟨_, by rw [exec_frameObserved_heard s f hr hf, s.frameHeard_own_eq f hr hown hc], rfl⟩
  · exact ⟨by rw [exec_frameObserved_completed s f hr hf, s.frameCompleted_eq f hc], s.dueEvent_completed f hr hf⟩
  · have hno : ¬ s.acts source = true := by
      rw [s.acts_iff]
      rintro ⟨hr, ha, hsil, hne⟩
      rcases h with h | h | h | h
      · exact absurd (h.symm.trans hr) nofun
      · exact absurd (h.symm.trans ha) nofun
      · exact absurd (h.symm.trans hsil) nofun
      · exact hne h
    exact ⟨fun figure => exec_rollColdReceived_of_not source figure s hno,
      fun figure => exec_rollWarmReceived_of_not source figure s hno,
      fun b => execBidReceived_of_not source b s fun h => hno h.1,
      fun a => execAnswerReceived_of_not source a s fun h => hno h.1,
      fun d => execDropReceived_of_not source d s fun h => hno h.1,
      fun c => execCarryReceived_of_not source c s fun h => hno h.1⟩

end Sys2Proof.Machine

/-! ROLL, DROP and CARRY handed to the acting blocks (O19, O20, O24, O25). -/

namespace Sys2Proof.Machine

/-! ### A pass that acts on some entries alone -/

/-- A pass over a list of indices, whose step acts on the entries that had a property, is the pass over those; `K` is
what every step keeps and may rely on. -/
theorem State.foldl_filter (K : State → Prop) (p : Index → Bool) (f step : Index → State → State) (l : List Index)
    (hl : l.Nodup) (e : Index → Entry) (hf : ∀ i t, K t → t.entry i = e i → f i t = if p i then step i t else t)
    (hK : ∀ i t, K t → K (step i t)) (hother : ∀ i j t, i ≠ j → (step i t).entry j = t.entry j) (s : State) (h0 : K s)
    (hs : ∀ i ∈ l, s.entry i = e i) :
    l.foldl (fun t i => f i t) s = (l.filter p).foldl (fun t i => step i t) s := by
  induction l generalizing s with
  | nil => rfl
  | cons i l ih =>
    obtain ⟨hi, hl⟩ := List.nodup_cons.1 hl
    rw [List.foldl_cons, hf i s h0 (hs i List.mem_cons_self), List.filter_cons]
    split
    · refine ih hl _ (hK i s h0) fun j hj => ?_
      rw [hother i j s fun hij => hi (hij ▸ hj)]
      exact hs j (List.mem_cons_of_mem _ hj)
    · exact ih hl _ h0 fun j hj => hs j (List.mem_cons_of_mem _ hj)

theorem State.eachEntry_filter (s : State) (K : State → Prop) (p : Index → Bool) (f step : Index → State → State)
    (h0 : K s) (hf : ∀ i t, K t → t.entry i = s.entry i → f i t = if p i then step i t else t)
    (hK : ∀ i t, K t → K (step i t)) (hother : ∀ i j t, i ≠ j → (step i t).entry j = t.entry j) :
    s.eachEntry f = ((List.finRange 64).filter p).foldl (fun t i => step i t) s :=
  State.foldl_filter K p f step _ (List.nodup_finRange 64) s.entry hf hK hother s h0 fun _ _ => rfl

/-- What a pass over a list leaves of each entry, if its step at an index writes that entry alone. -/
theorem State.foldl_entry (step : Index → State → State) (g : Entry → Entry)
    (hself : ∀ i t, (step i t).entry i = g (t.entry i)) (hother : ∀ i j t, i ≠ j → (step i t).entry j = t.entry j)
    (l : List Index) (hl : l.Nodup) (s : State) (j : Index) :
    (l.foldl (fun t i => step i t) s).entry j = if j ∈ l then g (s.entry j) else s.entry j := by
  induction l generalizing s with
  | nil => rfl
  | cons i l ih =>
    obtain ⟨hi, hl⟩ := List.nodup_cons.1 hl
    rw [List.foldl_cons, ih hl]
    by_cases hij : i = j
    · subst hij
      rw [if_neg hi, if_pos List.mem_cons_self, hself]
    · rw [hother i j s hij]
      exact if_congr (by rw [List.mem_cons, or_iff_right (Ne.symm hij)]) rfl rfl

/-- The entries that a ROLL from a card slot acts on. -/
def State.facingStanding (s : State) (source : CardSlot) (i : Index) : Bool :=
  (s.entry i).farSlot == source && (s.entry i).state.standing

theorem State.facingStanding_iff (s : State) (source : CardSlot) (i : Index) :
    s.facingStanding source i = true ↔ (s.entry i).farSlot = source ∧ (s.entry i).state.standing = true := by
  simp [State.facingStanding]

theorem State.facing_filter (s : State) (source : CardSlot) :
    ((s.facing source).filter fun i => (s.entry i).state.standing) =
      (List.finRange 64).filter (s.facingStanding source) := by
  unfold State.facing
  rw [List.filter_filter]
  exact List.filter_congr fun i _ => Bool.and_comm _ _

theorem State.failedAs_entry (s : State) (i j : Index) (r : FailReason) (f : Option FarReason) :
    (s.failedAs i r f).entry j =
      if i = j then { s.entry i with state := .failed, failure := some ⟨r, f⟩, deadline := none } else s.entry j :=
  entry_of_table_set s _ i j _ rfl

theorem State.pendingAs_entry (s : State) (i j : Index) (misses : Nat) : (s.pendingAs i misses).entry j =
    if i = j then { s.entry i with
        state := .pending, late := false, noReceipt := 0, busy := 0, misses := misses
        deadline :=
          if (s.entry i).role = .far ∧ s.relink.campaign ≠ .gather then some (s.now + s.settings.p) else none }
      else s.entry j := entry_of_table_set s _ i j _ rfl

theorem State.entry_of_table {s t : State} (h : t.table = s.table) (i : Index) : t.entry i = s.entry i := by
  unfold State.entry
  rw [h]

theorem State.rolled_entry (s : State) (i : Index) : s.rolled.entry i = s.entry i := State.entry_of_table s.rolled_table i

theorem State.endIfSettled_entry (s : State) (i : Index) : s.endIfSettled.entry i = s.entry i :=
  State.entry_of_table s.endIfSettled_table i

theorem State.endIfSettled_units (s : State) : s.endIfSettled.units = s.units := by
  by_cases h : s.settled
  · rw [s.endIfSettled_of_settled h]; rfl
  · rw [s.endIfSettled_of_not h]

/-! ### ROLL COLD (R84, R105) -/

/-- What a ROLL COLD does to an entry it fails. -/
def State.rollLost (i : Index) (s : State) : State := (s.failedAs i .lost none).unanswered i

theorem State.rollLost_entry (s : State) (i j : Index) : (State.rollLost i s).entry j =
    if i = j then { s.entry i with state := .failed, failure := some ⟨.lost, none⟩, deadline := none } else s.entry j :=
  s.failedAs_entry i j .lost none

/-- What a ROLL COLD leaves before the end of the campaign is looked for (R84). -/
def State.rolledCold (s : State) (source : CardSlot) : State :=
  ((List.finRange 64).filter (s.facingStanding source)).foldl (fun t i => State.rollLost i t) s

theorem State.rollColdPass_eq (s : State) (source : CardSlot) :
    s.eachEntry (State.rollColdEntry source) = s.rolledCold source := by
  refine s.eachEntry_filter (fun _ => True) (s.facingStanding source) _ State.rollLost trivial (fun i t _ ht => ?_)
    (fun _ _ _ => trivial) fun i j t hij => ?_
  · rw [State.rollColdEntry_eq, ht]
    simp only [← s.facingStanding_iff]
    rfl
  · rw [State.rollLost_entry, if_neg hij]

theorem State.rolledCold_entry (s : State) (source : CardSlot) (i : Index) : (s.rolledCold source).entry i =
    if s.facingStanding source i = true then
      { s.entry i with state := .failed, failure := some ⟨.lost, none⟩, deadline := none }
    else s.entry i := by
  refine (State.foldl_entry State.rollLost
    (fun e => { e with state := .failed, failure := some ⟨.lost, none⟩, deadline := none })
    (fun i t => (t.rollLost_entry i i).trans (if_pos rfl)) (fun i j t hij => (t.rollLost_entry i j).trans (if_neg hij)) _
    ((List.nodup_finRange 64).filter _) s i).trans (if_congr ?_ rfl rfl)
  rw [List.mem_filter]
  exact and_iff_right (List.mem_finRange i)

theorem State.rollLosts_units (l : List Index) (s : State) :
    ∀ u ∈ (l.foldl (fun t i => State.rollLost i t) s).units, u ∈ s.units ∧ u.entry ∉ l := by
  induction l generalizing s with
  | nil => exact fun u hu => ⟨hu, List.not_mem_nil⟩
  | cons i l ih =>
    intro u hu
    obtain ⟨hmem, hl⟩ := ih _ u hu
    obtain ⟨hmem, hne⟩ := List.mem_filter.1 hmem
    exact ⟨hmem, List.not_mem_cons_of_ne_of_not_mem (bne_iff_ne.1 hne) hl⟩

theorem State.receipted_rolled_entry (s : State) (f : Frame) (r : Option Receipt) (i : Index) :
    (s.receipted f r).rolled.entry i = s.entry i := State.rolled_entry _ i

/-- Settles O19: the pass over the facing entries, and what it leaves of each. -/
theorem rollColdFailsFacingEntries : Obligations.RollColdFailsFacingEntries := by
  intro s source figure hacts
  generalize hb : (s.receipted ⟨source, .every, .roll ⟨.cold, figure⟩⟩ none).rolled = b
  have hent : b.entry = s.entry := funext fun i => by rw [← hb, State.receipted_rolled_entry]
  have hfs : s.facingStanding source = b.facingStanding source := by
    unfold State.facingStanding
    rw [hent]
  refine ⟨(b.rolledCold source).endIfSettled, ?_, ?_, fun i hfar hst => ?_, fun i hn => ?_⟩
  · rw [execRollColdReceived_eq source figure s hacts, hb, State.rollColdPass_eq]
  · rw [s.facing_filter, hfs]
    exact State.endIfSettled_settles _
  · have hi : b.facingStanding source i = true := by rw [← hfs]; exact (s.facingStanding_iff source i).2 ⟨hfar, hst⟩
    rw [State.endIfSettled_entry, State.rolledCold_entry, if_pos hi, hent, State.endIfSettled_units]
    refine ⟨rfl, fun u hu hui => ?_⟩
    exact (State.rollLosts_units _ b u hu).2 (List.mem_filter.2 ⟨List.mem_finRange _, by rw [hui]; exact hi⟩)
  · rw [State.endIfSettled_entry, State.rolledCold_entry, if_neg, hent]
    rw [← hfs, s.facingStanding_iff]
    exact hn

/-! ### ROLL WARM (R85, R105, R148) -/

/-- What a ROLL WARM does to a standing entry, which was `e` before it. -/
def State.rollReturned (e : Index → Entry) (i : Index) (s : State) : State :=
  if (e i).state = .pending then s.withEntry i { e i with misses := 0 } else (s.pendingAs i 0).unanswered i

theorem State.rollReturned_other (e : Index → Entry) (s : State) {i j : Index} (hij : i ≠ j) :
    (State.rollReturned e i s).entry j = s.entry j := by
  unfold State.rollReturned
  split
  · rw [State.withEntry_entry, if_neg hij]
  · exact (s.pendingAs_entry i j 0).trans (if_neg hij)

/-- PENDING with misses 0, and the attempt kept. -/
theorem State.rollReturned_self (s : State) (i : Index) : ((State.rollReturned s.entry i s).entry i).state = .pending
    ∧ ((State.rollReturned s.entry i s).entry i).misses = 0
    ∧ ((State.rollReturned s.entry i s).entry i).attempt = (s.entry i).attempt := by
  unfold State.rollReturned
  split
  · next h => rw [State.withEntry_entry_self]; exact ⟨h, rfl, rfl⟩
  · have : ((s.pendingAs i 0).unanswered i).entry i = _ := (s.pendingAs_entry i i 0).trans (if_pos rfl)
    rw [this]
    exact ⟨rfl, rfl, rfl⟩

theorem State.rollReturned_rest (e : Index → Entry) (s : State) (i : Index) :
    (State.rollReturned e i s).units = s.units ∧ (State.rollReturned e i s).line = s.line
      ∧ (State.rollReturned e i s).supply = s.supply := by
  unfold State.rollReturned
  split <;> exact ⟨rfl, rfl, rfl⟩

/-- What a ROLL WARM leaves (R85). -/
def State.rolledWarm (s : State) (source : CardSlot) : State :=
  ((List.finRange 64).filter (s.facingStanding source)).foldl (fun t i => State.rollReturned s.entry i t) s

theorem State.rollWarmEntry_at (s t : State) (source : CardSlot) (i : Index) (ht : t.entry i = s.entry i) :
    State.rollWarmEntry source i t =
      if s.facingStanding source i = true then State.rollReturned s.entry i t else t := by
  rw [State.rollWarmEntry_eq, ht]
  simp only [s.facingStanding_iff]
  rfl

theorem State.rollWarmPass_eq (s : State) (source : CardSlot) :
    s.eachEntry (State.rollWarmEntry source) = s.rolledWarm source :=
  s.eachEntry_filter (fun _ => True) (s.facingStanding source) _ (State.rollReturned s.entry) trivial
    (fun i t _ ht => s.rollWarmEntry_at t source i ht) (fun _ _ _ => trivial)
    fun _ _ t hij => State.rollReturned_other _ t hij

/-- What a fold of a pass that acts on its own entry alone leaves at an index: nothing, or its own step's result. -/
theorem State.rollReturneds_entry (e : Index → Entry) (l : List Index) (hl : l.Nodup) (s : State)
    (hs : ∀ i ∈ l, s.entry i = e i) (i : Index) :
    (i ∉ l → (l.foldl (fun t i => State.rollReturned e i t) s).entry i = s.entry i)
    ∧ (i ∈ l → ((l.foldl (fun t i => State.rollReturned e i t) s).entry i).state = .pending
      ∧ ((l.foldl (fun t i => State.rollReturned e i t) s).entry i).misses = 0
      ∧ ((l.foldl (fun t i => State.rollReturned e i t) s).entry i).attempt = (e i).attempt) := by
  induction l generalizing s with
  | nil => exact ⟨fun _ => rfl, nofun⟩
  | cons k l ih =>
    obtain ⟨hk, hl⟩ := List.nodup_cons.1 hl
    obtain ⟨ihOut, ihIn⟩ := ih hl (State.rollReturned e k s) fun j hj => by
      rw [State.rollReturned_other e s fun hkj => hk (by rw [hkj]; exact hj)]
      exact hs j (List.mem_cons_of_mem _ hj)
    refine ⟨fun hi => ?_, fun hi => ?_⟩
    · rw [List.foldl_cons, ihOut fun h => hi (List.mem_cons_of_mem _ h),
        State.rollReturned_other e s fun h => hi (by rw [h]; exact List.mem_cons_self)]
    · rw [List.foldl_cons]
      rcases List.mem_cons.1 hi with rfl | hil
      · have hsi := hs i List.mem_cons_self
        have hself : State.rollReturned e i s = State.rollReturned s.entry i s := by
          unfold State.rollReturned
          rw [hsi]
        rw [ihOut hk, hself, ← hsi]
        exact s.rollReturned_self i
      · exact ihIn hil

theorem State.rollReturneds_rest (e : Index → Entry) (l : List Index) (s : State) :
    (l.foldl (fun t i => State.rollReturned e i t) s).units = s.units
      ∧ (l.foldl (fun t i => State.rollReturned e i t) s).line = s.line
      ∧ (l.foldl (fun t i => State.rollReturned e i t) s).supply = s.supply := by
  induction l generalizing s with
  | nil => exact ⟨rfl, rfl, rfl⟩
  | cons i l ih =>
    obtain ⟨hu, hl, hp⟩ := ih (State.rollReturned e i s)
    obtain ⟨gu, gl, gp⟩ := State.rollReturned_rest e s i
    exact ⟨hu.trans gu, hl.trans gl, hp.trans gp⟩

theorem State.rollWarm_running (s : State) (source : CardSlot) (figure : BitVec 24) :
    ((s.receipted ⟨source, .every, .roll ⟨.warm, figure⟩⟩ none).rolled.rolledWarm source).running = s.running := by
  unfold State.running State.rolledWarm
  rw [(State.rollReturneds_rest _ _ _).2.2, (State.rolled_units _).2]
  rfl

/-- Settles O20: the pass over the facing entries, and what it leaves of each. -/
theorem rollWarmReturnsFacingEntries : Obligations.RollWarmReturnsFacingEntries := by
  intro s source figure hacts
  have hunits : (s.receipted ⟨source, .every, .roll ⟨.warm, figure⟩⟩ none).rolled.units = s.units :=
    (State.rolled_units _).1
  have hline : ∀ b, (s.receipted ⟨source, .every, .roll ⟨.warm, figure⟩⟩ none).rolled = b →
      b.line.buffer = s.line.buffer ∧ b.line.drive = s.line.drive := fun b hb => by
    rw [← hb, (State.rolled_same _).2]
    exact ⟨rfl, rfl⟩
  generalize hb : (s.receipted ⟨source, .every, .roll ⟨.warm, figure⟩⟩ none).rolled = b at hunits
  have hent : b.entry = s.entry := funext fun i => by rw [← hb, State.receipted_rolled_entry]
  have hfs : s.facingStanding source = b.facingStanding source := by
    unfold State.facingStanding
    rw [hent]
  obtain ⟨hfoldUnits, hfoldLine, -⟩ := State.rollReturneds_rest b.entry ((List.finRange 64).filter (b.facingStanding source)) b
  have hat := State.rollReturneds_entry b.entry ((List.finRange 64).filter (b.facingStanding source))
    ((List.nodup_finRange 64).filter _) b fun _ _ => rfl
  have hmem : ∀ i, i ∈ (List.finRange 64).filter (b.facingStanding source) ↔
      (s.entry i).farSlot = source ∧ (s.entry i).state.standing = true := fun i => by
    rw [List.mem_filter, ← hfs, s.facingStanding_iff]
    exact and_iff_right (List.mem_finRange i)
  refine ⟨b.rolledWarm source, ?_, ?_, fun i hfar hst => ?_, fun i hn => ?_, hfoldUnits.trans hunits,
    (congrArg ShelfLine.buffer hfoldLine).trans (hline b hb).1, (congrArg ShelfLine.drive hfoldLine).trans (hline b hb).2⟩
  · rw [execRollWarmReceived_eq source figure s hacts, hb, State.rollWarmPass_eq]
  · rw [s.facing_filter, hfs]
    unfold State.rolledWarm State.rollReturned
    rw [hent]
  · rw [← hent]
    exact (hat i).2 ((hmem i).2 ⟨hfar, hst⟩)
  · rw [← hent]
    exact (hat i).1 fun hi => hn ((hmem i).1 hi)

/-! ### DROP (R105, R114) -/

theorem State.entryFacing_none {s : State} {circuit : Circuit} {source : CardSlot}
    (h : ∀ i, ¬ s.faces circuit source i) : s.entryFacing circuit source = none := by
  refine (s.findEntry_none _).2 fun i => ?_
  have := h i
  unfold State.faces at this
  rw [Bool.eq_false_iff]
  simpa [and_assoc] using this

theorem State.receipted_entryFacing (s : State) (f : Frame) (r : Option Receipt) (circuit : Circuit) (source : CardSlot) :
    (s.receipted f r).entryFacing circuit source = s.entryFacing circuit source := rfl

theorem execDropReceived_of_entry (source : CardSlot) (d : Drop) (s : State) (hacts : s.acts source = true)
    (hd : d.wf = true) {i : Index} (hi : s.facesAlone d.circuit source i) (hf : (s.entry i).state ≠ .failed) :
    exec (.dropReceived source d) s = .next
      (((s.receipted ⟨source, .card s.cardSlot, .drop d⟩ (some .taken)).failedAs i .dropped
        (some (DropReason.farReason d.reason))).unanswered i).endIfSettled := by
  rw [execDropReceived_eq source d s hacts hd, State.receipted_entryFacing, State.entryFacing_of_facesAlone hi]
  exact congrArg _ (if_neg hf)

/-- Settles O24: no entry, a FAILED entry and any other. -/
theorem dropFailsEntry : Obligations.DropFailsEntry := by
  intro s source d hacts hd
  refine ⟨fun hno => ?_, fun i hi => ⟨fun hf => ?_, fun hf => ?_⟩⟩
  · rw [execDropReceived_eq source d s hacts hd, State.receipted_entryFacing, State.entryFacing_none hno]
  · rw [execDropReceived_eq source d s hacts hd, State.receipted_entryFacing, State.entryFacing_of_facesAlone hi]
    exact congrArg _ (if_pos hf)
  · refine ⟨_, execDropReceived_of_entry source d s hacts hd hi hf, fun hr => ?_, fun hr => ?_, fun hr => ?_⟩
    all_goals rw [hr]; exact State.endIfSettled_settles _

/-! ### CARRY (R152 to R154) -/

/-- A CARRY that finds no entry is taken and discarded (R154). -/
theorem exec_carryReceived_of_none {s : State} {source : CardSlot} {c : Carry} (hacts : s.acts source = true)
    (hwf : c.wf = true) (hno : ∀ i, ¬ s.faces c.circuit source i) : exec (.carryReceived source c) s =
      .next (s.discardInbound (s.frameToMe source (.carry c)) 0xFF c.units.length) := by
  show execCarryReceived source c s = _
  unfold execCarryReceived
  rw [if_pos ⟨hacts, hwf⟩, State.entryFacing_none hno]

/-- Inbound units discarded, in one form (R154). -/
theorem State.discardInbound_eq (s : State) (f : Frame) (entry : Byte) (n : Nat) : s.discardInbound f entry n =
    { s.receipted f (some .taken) with
      port := (s.receipted f (some .taken)).port.posted [⟨.unitsDiscarded, entry, 2, BitVec.ofNat 8 n⟩] } := by
  unfold State.discardInbound
  rw [State.giveReceipt_eq, State.post_eq]
  rfl

theorem State.carryFor_of_failed (s : State) (f : Frame) {i : Index} (us : List SignalUnit)
    (h : (s.entry i).state = .failed) : s.carryFor f i us = s.discardInbound f (indexByte i) us.length := by
  unfold State.carryFor
  rw [if_pos h]

theorem State.carryFor_of_busy (s : State) (f : Frame) {i : Index} (us : List SignalUnit)
    (hf : (s.entry i).state ≠ .failed)
    (h : ¬ ((s.entry i).state.agreed = true ∧ us.length + s.delivery.queue.length ≤ Config.deliveryPlaces)) :
    s.carryFor f i us = s.receipted f (some .busy) := by
  unfold State.carryFor
  rw [if_neg hf, if_neg h, State.giveReceipt_eq]

/-- Settles O25: the entry found, and the free places of the Delivery Queue. -/
theorem carryIsTakenWholeOrNotAtAll : Obligations.CarryIsTakenWholeOrNotAtAll := by
  intro s source c hacts hwf
  refine ⟨fun hno => ?_, fun i hi => ?_⟩
  · rw [exec_carryReceived_of_none hacts hwf hno, State.discardInbound_eq]
    rfl
  · have hpos := Carry.units_length_pos_of_wf hwf
    have hfits : c.units.length ≤ 32 - s.delivery.queue.length ↔
        c.units.length + s.delivery.queue.length ≤ Config.deliveryPlaces := by
      have hplaces : Config.deliveryPlaces = 32 := rfl
      omega
    rw [exec_carryReceived_of_facesAlone hacts hwf hi]
    dsimp only
    rw [← EntryState.agreed_iff, hfits]
    refine ⟨fun hf => ?_, fun ha hr => ?_, fun ha hr => ?_, fun ha hf => ?_⟩
    · rw [State.carryFor_of_failed s _ _ hf, State.discardInbound_eq]
      rfl
    · rw [State.carryFor_of_agreed_of_fits s _ ha hr, State.giveReceipt_eq, State.judgeUnits_eq]
      rfl
    · have hnf : (s.entry i).state ≠ .failed := fun h => by rw [h] at ha; cases ha
      rw [State.carryFor_of_busy s _ _ hnf fun h => hr h.2]
      rfl
    · rw [State.carryFor_of_busy s _ _ hf fun h => ha h.1]
      rfl

end Sys2Proof.Machine

/-! BID and ANSWER handed to the Relink Engine, and the two arrivals of an ANSWER (O21, O22, O23). -/

namespace Sys2Proof.Machine

/-! ### The Answer List (R103) -/

theorem AnswerItem.isFor_iff (circuit : Circuit) (origin : CardSlot) (b : AnswerItem) :
    AnswerItem.isFor circuit origin b = true ↔ b.circuit = circuit ∧ b.origin = origin := by
  simp [AnswerItem.isFor]

theorem map_isFor_of_none (l : List AnswerItem) (a : AnswerItem)
    (h : ∀ b ∈ l, ¬ (b.circuit = a.circuit ∧ b.origin = a.origin)) :
    (l.map fun b => if AnswerItem.isFor a.circuit a.origin b then a else b) = l :=
  (List.map_congr_left fun b hb => if_neg fun hf => h b hb ((AnswerItem.isFor_iff _ _ b).1 hf)).trans (List.map_id' l)

theorem queueAnswerItem_replaces (before after : List AnswerItem) (a b : AnswerItem)
    (hb : b.circuit = a.circuit ∧ b.origin = a.origin)
    (ho : ∀ c ∈ before ++ after, ¬ (c.circuit = a.circuit ∧ c.origin = a.origin)) :
    queueAnswerItem (before ++ b :: after) a = before ++ a :: after := by
  have hfor : AnswerItem.isFor a.circuit a.origin b = true := (AnswerItem.isFor_iff _ _ b).2 hb
  have hany : (before ++ b :: after).any (AnswerItem.isFor a.circuit a.origin) = true :=
    List.any_eq_true.2 ⟨b, by simp, hfor⟩
  unfold queueAnswerItem
  rw [if_pos hany, List.map_append, List.map_cons, if_pos hfor,
    map_isFor_of_none before a fun c hc => ho c (List.mem_append_left _ hc),
    map_isFor_of_none after a fun c hc => ho c (List.mem_append_right _ hc)]

theorem not_any_isFor {l : List AnswerItem} {a : AnswerItem}
    (h : ∀ b ∈ l, ¬ (b.circuit = a.circuit ∧ b.origin = a.origin)) :
    ¬ l.any (AnswerItem.isFor a.circuit a.origin) = true := fun hany => by
  obtain ⟨b, hb, hf⟩ := List.any_eq_true.1 hany
  exact h b hb ((AnswerItem.isFor_iff _ _ b).1 hf)

theorem queueAnswerItem_joins (l : List AnswerItem) (a : AnswerItem)
    (h : ∀ b ∈ l, ¬ (b.circuit = a.circuit ∧ b.origin = a.origin)) (hl : l.length < 64) :
    queueAnswerItem l a = l ++ [a] := by
  unfold queueAnswerItem
  rw [if_neg (not_any_isFor h)]
  exact if_pos hl

theorem queueAnswerItem_abandons (l : List AnswerItem) (a : AnswerItem)
    (h : ∀ b ∈ l, ¬ (b.circuit = a.circuit ∧ b.origin = a.origin)) (hl : 64 ≤ l.length) :
    queueAnswerItem l a = l := by
  unfold queueAnswerItem
  rw [if_neg (not_any_isFor h)]
  exact if_neg (Nat.not_lt.2 hl)

/-! ### BID (R98 to R100) -/

theorem State.farEntryFacing_eq_some {s : State} {circuit : Circuit} {source : CardSlot} {i : Index}
    (h : s.faces circuit source i) (hr : (s.entry i).role = .far)
    (hu : ∀ j, s.faces circuit source j → (s.entry j).role = .far → j = i) :
    s.farEntryFacing circuit source = some i := by
  obtain ⟨hs, hc, hf⟩ := h
  refine s.findEntry_unique _ i (by simp [hs, hc, hf, hr]) fun j hj => ?_
  simp only [Bool.and_eq_true, bne_iff_ne, beq_iff_eq] at hj
  obtain ⟨⟨⟨hs, hc⟩, hf⟩, hr⟩ := hj
  exact hu j ⟨hs, hc, hf⟩ hr

theorem State.farEntryFacing_eq_none {s : State} {circuit : Circuit} {source : CardSlot}
    (h : ∀ i, s.faces circuit source i → (s.entry i).role ≠ .far) : s.farEntryFacing circuit source = none := by
  refine (s.findEntry_none _).2 fun i => ?_
  rw [Bool.eq_false_iff]
  intro hi
  simp only [Bool.and_eq_true, bne_iff_ne, beq_iff_eq] at hi
  obtain ⟨⟨⟨hs, hc⟩, hf⟩, hr⟩ := hi
  exact h i ⟨hs, hc, hf⟩ hr

/-- A BID that finds its entry is judged for it (R98). -/
theorem execBidReceived_of_entry (source : CardSlot) (b : Bid) (s : State) (hacts : s.acts source = true)
    (hb : b.wf = true) {i : Index} (hi : s.farEntryFacing b.circuit source = some i) :
    exec (.bidReceived source b) s = .next
      ((s.receipted ⟨source, .card s.cardSlot, .bid b⟩ (some .taken)).judgeBid i source b).endIfSettled := by
  have hr : (s.receipted ⟨source, .card s.cardSlot, .bid b⟩ (some .taken)).farEntryFacing b.circuit source = some i := hi
  rw [execBidReceived_eq source b s hacts hb, hr]

theorem execBidReceived_of_none (source : CardSlot) (b : Bid) (s : State) (hacts : s.acts source = true)
    (hb : b.wf = true) (hi : s.farEntryFacing b.circuit source = none) :
    exec (.bidReceived source b) s = .next
      ((s.receipted ⟨source, .card s.cardSlot, .bid b⟩ (some .taken)).queued
        (Bid.answerFor b source .refuseUnknown 0)).endIfSettled := by
  have hr : (s.receipted ⟨source, .card s.cardSlot, .bid b⟩ (some .taken)).farEntryFacing b.circuit source = none := hi
  rw [execBidReceived_eq source b s hacts hb, hr]
  rfl

theorem State.judgeBid_failed (s : State) (i : Index) (source : CardSlot) (b : Bid) (h : (s.entry i).state = .failed) :
    s.judgeBid i source b = s.queued (Bid.answerFor b source .refuseFailed (s.entry i).key) := if_pos h

theorem State.judgeBid_discord (s : State) (i : Index) (source : CardSlot) (b : Bid) (h : (s.entry i).state ≠ .failed)
    (hf : b.fingerprint ≠ (s.entry i).fingerprint) : s.judgeBid i source b =
      (s.failedAs i .discord none).queued (Bid.answerFor b source .refuseDiscord (s.entry i).key) := by
  refine (if_neg h).trans ((if_pos hf).trans ?_)
  rw [State.moveToFailed_eq]
  rfl

theorem State.judgeBid_expired (s : State) (i : Index) (source : CardSlot) (b : Bid) (h : (s.entry i).state ≠ .failed)
    (hf : b.fingerprint = (s.entry i).fingerprint) (hm : s.settings.limit (s.entry i).cls < s.bidFigure b) :
    s.judgeBid i source b =
      (s.failedAs i .expired none).queued (Bid.answerFor b source .refuseExpired (s.entry i).key) := by
  have hs : s.settings.survives (s.entry i).cls (s.bidFigure b) = false := decide_eq_false (Nat.not_le.2 hm)
  refine (if_neg h).trans ((if_neg (not_not.2 hf)).trans ((if_pos hs).trans ?_))
  rw [State.moveToFailed_eq]
  rfl

theorem State.judgeBid_accepts (s : State) (i : Index) (source : CardSlot) (b : Bid) (h : (s.entry i).state ≠ .failed)
    (hf : b.fingerprint = (s.entry i).fingerprint) (hm : s.bidFigure b ≤ s.settings.limit (s.entry i).cls) :
    s.judgeBid i source b = s.acceptBid i source b := by
  have hs : ¬ s.settings.survives (s.entry i).cls (s.bidFigure b) = false := by
    rw [Bool.not_eq_false]
    exact decide_eq_true hm
  exact (if_neg h).trans ((if_neg (not_not.2 hf)).trans (if_neg hs))

/-- The entry with the attempt of the BID it accepts (R100). -/
def Entry.attempted (e : Entry) (b : Bid) : Entry := { e with attempt := b.attempt }

/-- A BID accepted, by the entry's state (R100). -/
theorem State.acceptBid_eq (s : State) (i : Index) (source : CardSlot) (b : Bid) : s.acceptBid i source b =
    match (s.entry i).state with
    | .live => (s.withEntry i ((s.entry i).attempted b)).queued (Bid.answerFor b source .match_ (s.entry i).key)
    | .parked => (s.withEntry i ((s.entry i).attempted b)).queued (Bid.answerFor b source .matchParked (s.entry i).key)
    | .pending => (s.withEntry i { (s.entry i).attempted b with state := .checking, deadline := none }).requestCheck i
    | _ => s.withEntry i ((s.entry i).attempted b) := by
  have hw : (s.onEntry i fun e => { e with attempt := b.attempt }) = s.withEntry i ((s.entry i).attempted b) := rfl
  have hon : ∀ g, (s.withEntry i ((s.entry i).attempted b)).onEntry i g = s.withEntry i (g ((s.entry i).attempted b)) :=
    fun g => by
      rw [State.onEntry_eq, State.withEntry_entry_self]
      exact s.withEntry_withEntry i _ _
  unfold State.acceptBid
  dsimp only
  rw [hw, hon, State.withEntry_entry_self]
  show (match (s.entry i).state with
    | .live => _ | .parked => _ | .pending => _ | .checking => _ | .empty => _ | .bidding => _ | .deferred => _
    | .joining => _ | .failed => _) = _
  cases (s.entry i).state <;> rfl

section
variable (s : State) (i : Index) (source : CardSlot) (b : Bid)

theorem State.acceptBid_live (h : (s.entry i).state = .live) : s.acceptBid i source b =
    (s.withEntry i ((s.entry i).attempted b)).queued (Bid.answerFor b source .match_ (s.entry i).key) := by
  rw [State.acceptBid_eq, h]

theorem State.acceptBid_parked (h : (s.entry i).state = .parked) : s.acceptBid i source b =
    (s.withEntry i ((s.entry i).attempted b)).queued (Bid.answerFor b source .matchParked (s.entry i).key) := by
  rw [State.acceptBid_eq, h]

theorem State.acceptBid_checking (h : (s.entry i).state = .checking) :
    s.acceptBid i source b = s.withEntry i ((s.entry i).attempted b) := by
  rw [State.acceptBid_eq, h]

/-- A PENDING FAR entry has its check asked for (R100, R125). -/
theorem State.acceptBid_pending_present (h : (s.entry i).state = .pending) (hw : s.switch.highway = .present) :
    s.acceptBid i source b =
      (s.withEntry i { (s.entry i).attempted b with state := .checking, deadline := none }).checkAsked i := by
  rw [State.acceptBid_eq, h]
  exact State.requestCheck_of_present (s.withEntry i _) i hw

/-- While the highway is LOST it parks with MATCH-PARKED (R100, R125). -/
theorem State.acceptBid_pending_lost (h : (s.entry i).state = .pending) (hw : s.switch.highway = .lost)
    (hf : s.faces b.circuit source i) : s.acceptBid i source b =
      (s.withEntry i { (s.entry i).attempted b with state := .parked, deadline := none }).queued
        (Bid.answerFor b source .matchParked (s.entry i).key) := by
  obtain ⟨-, hcirc, hfar⟩ := hf
  rw [State.acceptBid_eq, h]
  refine (State.requestCheck_of_lost (s.withEntry i _) i hw).trans ?_
  rw [State.checkCannotRun_of_checking _ i (by rw [State.withEntry_entry_self]), State.withEntry_entry_self,
    State.withEntry_withEntry]
  simp only [Entry.answer, Entry.attempted, Bid.answerFor, hcirc, hfar]

end

/-- Settles O21: the order of the judgement, case by case, and the three ways in which an answer is queued. -/
theorem bidIsJudgedInOrder : Obligations.BidIsJudgedInOrder := by
  refine ⟨fun s source b hacts hb => ⟨fun hno => ?_, fun i hi hr hu => ?_⟩, fun l a => ⟨fun before b after hl => ?_,
    queueAnswerItem_joins l a, queueAnswerItem_abandons l a⟩⟩
  · exact ⟨_, execBidReceived_of_none source b s hacts hb (State.farEntryFacing_eq_none hno), State.endIfSettled_settles _⟩
  · refine ⟨_, execBidReceived_of_entry source b s hacts hb (State.farEntryFacing_eq_some hi hr hu), fun hf => ?_,
      fun hf hfp => ?_, fun hf hfp hm => ?_, fun hf hfp hm => ?_⟩
    · rw [State.judgeBid_failed (s.receipted _ _) i source b hf]
      exact State.endIfSettled_settles _
    · rw [State.judgeBid_discord (s.receipted _ _) i source b hf hfp]
      exact State.endIfSettled_settles _
    · rw [State.judgeBid_expired (s.receipted _ _) i source b hf hfp (by rw [State.receipted_settings]; exact hm)]
      exact State.endIfSettled_settles _
    · rw [State.judgeBid_accepts (s.receipted _ _) i source b hf hfp (by rw [State.receipted_settings]; exact hm)]
      refine ⟨fun hs => ?_, fun hs => ?_, fun hs hw => ?_, fun hs hw => ?_, fun hs => ?_⟩
      · rw [State.acceptBid_live (s.receipted _ _) i source b hs]
        exact State.endIfSettled_settles _
      · rw [State.acceptBid_parked (s.receipted _ _) i source b hs]
        exact State.endIfSettled_settles _
      · rw [State.acceptBid_pending_present (s.receipted _ _) i source b hs hw]
        exact State.endIfSettled_settles _
      · rw [State.acceptBid_pending_lost (s.receipted _ _) i source b hs hw hi]
        exact State.endIfSettled_settles _
      · rw [State.acceptBid_checking (s.receipted _ _) i source b hs]
        exact State.endIfSettled_settles _
  · rw [hl]
    exact queueAnswerItem_replaces before after a b

/-! ### ANSWER (R106 to R111) -/

theorem execAnswerReceived_of_entry (source : CardSlot) (a : Answer) (s : State) (hacts : s.acts source = true)
    (ha : a.wf = true) {i : Index} (hi : s.facesAlone a.circuit source i) (ht : (s.entry i).takesAnswer a = true) :
    exec (.answerReceived source a) s = .next
      ((s.answered source a).takeAnswer i a (keyBelow (s.entry i).key (s.frontBefore source a))).endIfSettled := by
  have hf : (s.answered source a).entryFacing a.circuit source = some i := State.entryFacing_of_facesAlone hi
  rw [execAnswerReceived_eq source a s hacts ha, hf]
  exact congrArg _ (if_pos ht)

theorem execAnswerReceived_of_other (source : CardSlot) (a : Answer) (s : State) (hacts : s.acts source = true)
    (ha : a.wf = true) {i : Index} (hi : s.facesAlone a.circuit source i) (ht : ¬ (s.entry i).takesAnswer a = true) :
    exec (.answerReceived source a) s = .next (s.answered source a) := by
  have hf : (s.answered source a).entryFacing a.circuit source = some i := State.entryFacing_of_facesAlone hi
  rw [execAnswerReceived_eq source a s hacts ha, hf]
  exact congrArg _ (if_neg ht)

theorem execAnswerReceived_of_none (source : CardSlot) (a : Answer) (s : State) (hacts : s.acts source = true)
    (ha : a.wf = true) (hno : ∀ i, ¬ s.faces a.circuit source i) :
    exec (.answerReceived source a) s = .next (s.answered source a) := by
  have hf : (s.answered source a).entryFacing a.circuit source = none := State.entryFacing_none hno
  rw [execAnswerReceived_eq source a s hacts ha, hf]

theorem keyBelow_iff (key : Key) (front : Option Key) :
    keyBelow key front = true ↔ ∃ k, front = some k ∧ key.toNat < k.toNat := by
  cases front <;> simp [keyBelow]

theorem State.joinedBy_present (s : State) (i : Index) (st : EntryState) (late : Bool) (h : s.switch.highway = .present) :
    s.joinedBy i st late = (s.joinedAs i st late).checkAsked i := if_neg (by rw [h]; nofun)

theorem State.joinedBy_lost (s : State) (i : Index) (st : EntryState) (late : Bool) (h : s.switch.highway = .lost) :
    s.joinedBy i st late = s.joinedAs i .parked late := if_pos h

/-- Settles O22: no entry, an entry that takes no ANSWER, and each verdict. -/
theorem answerMovesOrigin : Obligations.AnswerMovesOrigin := by
  intro s source a hacts ha
  refine ⟨fun hno => execAnswerReceived_of_none source a s hacts ha hno, fun i hi => ⟨fun hn => ?_, fun ht late hlate => ?_⟩⟩
  · exact execAnswerReceived_of_other source a s hacts ha hi fun h => hn ((Entry.takesAnswer_iff _ a).1 h)
  · have hlate : keyBelow (s.entry i).key (s.frontBefore source a) = late := by
      rw [Bool.eq_iff_iff, keyBelow_iff, hlate]
    refine ⟨_, execAnswerReceived_of_entry source a s hacts ha hi ((Entry.takesAnswer_iff _ a).2 ht), ?_⟩
    rw [hlate, State.takeAnswer_eq]
    refine ⟨fun hv hw => ?_, fun hv hw => ?_, fun hv hw => ?_, fun hv => ?_, fun hv => ?_, fun hv => ?_, fun hv => ?_,
      fun hv => ?_⟩
    · rw [hv]
      dsimp only
      rw [State.joinedBy_present (s.answered source a) i .joining late hw]
      exact State.endIfSettled_settles _
    · rw [hv]
      dsimp only
      rw [State.joinedBy_present (s.answered source a) i .parked late hw]
      exact State.endIfSettled_settles _
    · have hj : ∀ st, (s.answered source a).joinedBy i st late = (s.answered source a).joinedAs i .parked late :=
        fun st => State.joinedBy_lost _ i st late hw
      rcases hv with hv | hv
      · rw [hv]
        dsimp only
        rw [hj]
        exact State.endIfSettled_settles _
      · rw [hv]
        dsimp only
        rw [hj]
        exact State.endIfSettled_settles _
    all_goals rw [hv]; exact State.endIfSettled_settles _

end Sys2Proof.Machine

/-! The two arrivals of an ANSWER, at the observer and at the acting block, in either order (O23; log entry 5). -/

namespace Sys2Proof.Machine

/-! ### A frame heard, by what a campaign in progress keeps (R96) -/

/-- The entry as it was, or DEFERRED and returned to PENDING with misses 0 (R96). -/
def Entry.StoodOrReturned (e f : Entry) (governed : Bool) : Prop :=
  f = e ∨ (e.state = .deferred ∧ governed = false ∧ ∃ d, f = { e.returned with deadline := d })

theorem Entry.StoodOrReturned.relinking {e f : Entry} {g : Bool} (h : e.StoodOrReturned f g) :
    f.state.relinking = e.state.relinking := by
  rcases h with rfl | ⟨hd, -, d, rfl⟩
  · rfl
  · rw [hd]; rfl

theorem Entry.StoodOrReturned.faces {e f : Entry} {g : Bool} (h : e.StoodOrReturned f g) :
    (f.state = .empty ↔ e.state = .empty) ∧ f.circuit = e.circuit ∧ f.farSlot = e.farSlot := by
  rcases h with rfl | ⟨hd, -, d, rfl⟩
  · exact ⟨Iff.rfl, rfl, rfl⟩
  · rw [hd]; exact ⟨⟨nofun, nofun⟩, rfl, rfl⟩

/-- What the return of the DEFERRED entries for a frame leaves: its table, its checks, and no more (R96). -/
structure State.ReturnedFor (s : State) (f : Frame) (t : State) : Prop where
  rest : t = { s with table := t.table, switch := t.switch }
  highway : t.switch.highway = s.switch.highway
  entries : ∀ j, (s.entry j).StoodOrReturned (t.entry j) (s.actorGoverns f j)

/-- A DEFERRED entry returned during a campaign leaves the Relink Engine and the port alone. -/
theorem State.pendingAs_relinks (s : State) (i : Index) (hs : (s.entry i).state = .deferred)
    (hc : s.relink.campaign ≠ .steady) : s.pendingAs i 0 =
      { s with table := (s.pendingAs i 0).table, switch := (s.pendingAs i 0).switch } := by
  have hti : s.timerWithout i = s.relink.answerTimer := if_neg (by rw [hs]; nofun)
  unfold State.pendingAs
  rw [hti, if_neg hc, if_neg hc]

theorem State.deferredReturn_returned (s : State) (f : Frame)
    (hc : ∀ i, (s.entry i).state = .deferred → s.relink.campaign ≠ .steady) : s.ReturnedFor f (s.deferredReturn f) := by
  refine s.eachEntry_induct (s.ReturnedFor f) _ ⟨rfl, rfl, fun _ => .inl rfl⟩ fun i t ht => ?_
  split
  · next h =>
    obtain ⟨hd, -, hg⟩ := h
    have hi : t.entry i = s.entry i := by
      rcases ht.entries i with h | ⟨-, -, d, h⟩
      · exact h
      · rw [h] at hd; cases hd
    have hcs : t.relink.campaign ≠ .steady := by
      rw [ht.rest]
      exact hc i (by rw [← hi]; exact hd)
    rw [State.moveToPending_eq]
    refine ⟨?_, ?_, fun j => ?_⟩
    · rw [t.pendingAs_relinks i hd hcs, ht.rest]
    · exact (SlotSwitch.withdraw_highway _ i).trans ht.highway
    · rw [State.pendingAs_entry]
      split
      · next hij =>
        subst hij
        exact .inr ⟨by rw [← hi]; exact hd, hg, _, by rw [hi]; rfl⟩
      · exact ht.entries j
  · exact ht

/-- What a frame heard from another card slot leaves, where a campaign stands wherever an entry is DEFERRED. -/
structure State.Hears (s : State) (f : Frame) (t : State) : Prop where
  rest : t = { s with
    table := t.table
    switch := t.switch
    line := s.line.heard f
    port := s.port.latching { s.live with stuck := false }
    relink := { s.observed f with
      roster := s.relink.roster.set f.source.toFin (s.relink.roster[f.source.toFin].after f.body)
      arrival := s.arrivalAfter f } }
  highway : t.switch.highway = s.switch.highway
  entries : ∀ j, (s.entry j).StoodOrReturned (t.entry j) (s.actorGoverns f j)

theorem State.frameHeard_hears (s : State) (f : Frame) (h : f.source ≠ s.cardSlot) (hns : ¬ s.settled)
    (hc : ∀ i, (s.entry i).state = .deferred → s.relink.campaign ≠ .steady) : s.Hears f (s.frameHeard f) := by
  have hret := ((s.hearing f).onRelink fun r => r.hear f).deferredReturn_returned f hc
  rw [s.frameHeard_of_other f h, State.observe_eq]
  generalize hu : ((s.hearing f).onRelink fun r => r.hear f).deferredReturn f = u at hret
  obtain ⟨hrest, hway, hent⟩ := hret
  rw [s.hearing_actorGoverns f] at hent
  have hobs := s.hearing_observed f u (by rw [← RosterRecord.hear_eq]; exact hrest)
  rw [hobs, State.endIfSettled_of_not]
  · refine ⟨?_, hway, hent⟩
    generalize hv : u.table = table at *
    generalize hw : u.switch = switch at *
    rw [hrest]
    rfl
  · intro hset
    exact hns (hset.of_observed (f := f) (s.observed_campaign f) rfl fun i => (hent i).relinking)

/-! ### An ANSWER taken -/

/-- The line and the port that `acts` reads are not touched by a frame heard. -/
theorem State.Hears.acts {s t : State} {f : Frame} (h : s.Hears f t) (source : CardSlot) : t.acts source = s.acts source := by
  have ha : t.active = s.active := by
    rw [h.rest]
    simp only [State.active, CardPort.latching_mode]
  unfold State.acts
  rw [ha, h.rest]
  rfl

theorem State.Hears.faces {s t : State} {f : Frame} (h : s.Hears f t) (circuit : Circuit) (source : CardSlot) (j : Index) :
    t.faces circuit source j ↔ s.faces circuit source j := by
  obtain ⟨hs, hc, hf⟩ := (h.entries j).faces
  unfold State.faces
  rw [hc, hf, Ne, Ne, hs]

theorem State.Hears.facesAlone {s t : State} {f : Frame} (h : s.Hears f t) {circuit : Circuit} {source : CardSlot} {i : Index}
    (hi : s.facesAlone circuit source i) : t.facesAlone circuit source i :=
  ⟨(h.faces circuit source i).2 hi.1, fun j hj => hi.2 j ((h.faces circuit source j).1 hj)⟩

theorem State.Hears.governed {s t : State} {f : Frame} (h : s.Hears f t) {i : Index} (hg : s.actorGoverns f i = true) :
    t.entry i = s.entry i := by
  rcases h.entries i with h | ⟨-, hn, -⟩
  · exact h
  · rw [hg] at hn; cases hn

/-- The state in which an origin that agreed waits for its check (R107, R125). -/
def joinState (v : Verdict) (highway : Highway) : EntryState :=
  if highway = .lost then .parked else if v = .match_ then .joining else .parked

theorem State.joinedBy_entry (s : State) (i j : Index) (st : EntryState) (late : Bool) :
    (s.joinedBy i st late).entry j =
      if i = j then { s.entry i with
        state := if s.switch.highway = .lost then .parked else st, late := late, deadline := none }
      else s.entry j := by
  have hj : ∀ st, (s.joinedAs i st late).entry j =
      if i = j then { s.entry i with state := st, late := late, deadline := none } else s.entry j :=
    fun st => entry_of_table_set s _ i j _ rfl
  have hask : ((s.joinedAs i st late).checkAsked i).entry j = (s.joinedAs i st late).entry j := by
    unfold State.checkAsked
    split <;> rfl
  unfold State.joinedBy
  split
  · exact hj .parked
  · exact hask.trans (hj st)

theorem State.joinedBy_relink (s : State) (i : Index) (st : EntryState) (late : Bool) :
    (s.joinedBy i st late).relink = (s.joinedAs i st late).relink := by
  unfold State.joinedBy
  split
  · rfl
  · unfold State.checkAsked
    split <;> rfl

/-- What an ANSWER that agrees leaves of its origin and of the campaign. -/
structure State.Joins (s : State) (a : Answer) (i : Index) (late : Bool) (t : State) : Prop where
  entry : t.entry i = { s.entry i with state := joinState a.verdict s.switch.highway, late := late, deadline := none }
  others : ∀ j, i ≠ j → t.entry j = s.entry j
  front : t.relink.front = s.relink.front
  campaign : t.relink.campaign = s.relink.campaign
  timer : t.relink.settleTimer = s.relink.settleTimer
  part : t.cardSlot = s.cardSlot ∧ t.supply = s.supply

/-- Settles-or-not aside, an ANSWER that agrees joins its origin (R107, R108). -/
theorem State.takeAnswer_joins (s : State) (source : CardSlot) (a : Answer) (i : Index) (late : Bool)
    (hv : a.verdict = .match_ ∨ a.verdict = .matchParked) : s.Joins a i late ((s.answered source a).takeAnswer i a late) := by
  have joins : ∀ st, (if s.switch.highway = .lost then .parked else st) = joinState a.verdict s.switch.highway →
      s.Joins a i late ((s.answered source a).joinedBy i st late) := by
    intro st hst
    have hrel := (s.answered source a).joinedBy_relink i st late
    refine ⟨?_, fun j hij => ?_, by rw [hrel]; rfl, by rw [hrel]; rfl, by rw [hrel]; rfl, ?_⟩
    · rw [State.joinedBy_entry, if_pos rfl, ← hst]
      rfl
    · rw [State.joinedBy_entry, if_neg hij]
      rfl
    · unfold State.joinedBy
      split
      · exact ⟨rfl, rfl⟩
      · unfold State.checkAsked
        split <;> exact ⟨rfl, rfl⟩
  rw [State.takeAnswer_eq]
  rcases hv with hv | hv
  · rw [hv]
    exact joins .joining (by rw [hv]; rfl)
  · rw [hv]
    exact joins .parked (by rw [hv]; rfl)

/-- Both orders leave the entries and the campaign such that it ends in both or in neither (R81). -/
theorem State.Joins.settled_iff {s t u v : State} {a : Answer} {i : Index} {late : Bool} (h : s.Joins a i late u)
    (g : t.Joins a i late v) (hc : t.relink.campaign = s.relink.campaign) (ht : t.relink.settleTimer = s.relink.settleTimer)
    (hw : t.switch.highway = s.switch.highway) (he : ∀ j, (t.entry j).state.relinking = (s.entry j).state.relinking) :
    v.settled ↔ u.settled := by
  have hrel : ∀ j, (v.entry j).state.relinking = (u.entry j).state.relinking := fun j => by
    by_cases hij : i = j
    · subst hij
      rw [h.entry, g.entry, hw]
    · rw [h.others j hij, g.others j hij, he j]
  unfold State.settled
  rw [h.campaign, g.campaign, hc, h.timer, g.timer, ht]
  simp only [hrel]

theorem State.endIfSettled_not_settled (s : State) : ¬ s.endIfSettled.settled := by
  by_cases h : s.settled
  · rw [s.endIfSettled_of_settled h]
    exact State.not_settled_of_steady rfl
  · rwa [s.endIfSettled_of_not h]

/-! ### Either order -/

theorem State.frontAfter_of_steady (s : State) (a : Answer) (h : s.relink.campaign = .steady) :
    s.frontAfter a = s.relink.front := if_neg fun hc => hc.1 h

/-- An ANSWER that is to be handed to the acting block, with the entry it moves. -/
structure State.Answers (s : State) (source : CardSlot) (a : Answer) (i : Index) : Prop where
  acts : s.acts source = true
  wf : a.wf = true
  alone : s.facesAlone a.circuit source i
  takes : (s.entry i).takesAnswer a = true

theorem State.Answers.exec {s : State} {source : CardSlot} {a : Answer} {i : Index} (h : s.Answers source a i)
    (hv : a.verdict = .match_ ∨ a.verdict = .matchParked) :
    ∃ u, s.Joins a i (keyBelow (s.entry i).key (s.frontBefore source a)) u
      ∧ exec (.answerReceived source a) s = .next u.endIfSettled :=
  ⟨_, s.takeAnswer_joins source a i _ hv, execAnswerReceived_of_entry source a s h.acts h.wf h.alone h.takes⟩

theorem State.frontBefore_of_none (s : State) (source : CardSlot) (a : Answer) (h : s.relink.arrival = .none) :
    s.frontBefore source a = s.relink.front := by
  unfold State.frontBefore
  rw [h]

/-- Settles O23: the observer keeps the front as it stood for the acting block, and the acting block moves no front. -/
theorem lateTestIgnoresOrder : Obligations.LateTestIgnoresOrder := by
  intro s source a i hacts ha harr hi hrole hst hatt hv hsound
  obtain ⟨hr, -, -, hne⟩ := (s.acts_iff source).1 hacts
  have htakes : (s.entry i).takesAnswer a = true := (Entry.takesAnswer_iff _ a).2 ⟨hrole, hst, hatt⟩
  have hans : s.Answers source a i := ⟨hacts, ha, hi, htakes⟩
  have hrelinking : (s.entry i).state.relinking = true := by rcases hst with h | h | h <;> rw [h] <;> rfl
  have hcamp : s.relink.campaign ≠ .steady := fun h => by
    rw [hsound.relinked h i] at hrelinking; cases hrelinking
  generalize hf : (⟨source, .card s.cardSlot, .answer a⟩ : Frame) = f
  have hwf : f.wf = true := by rw [← hf]; exact (Frame.wf_iff_card source _ (.answer a) nofun).2 ⟨nofun, ha⟩
  have hsrc : f.source = source := by rw [← hf]
  have hbody : f.body = .answer a := by rw [← hf]
  have hactsOn : s.actsOn f = true := (s.actsOn_iff f).2 ⟨by rw [hsrc]; exact hacts, .inr (by rw [← hf])⟩
  have hgov : s.actorGoverns f i = true := by
    rw [State.actorGoverns, hactsOn, hbody]
    simp [hi.1.2.1, hatt]
  have hobsFront : ∀ t : State, (t.observed f).front = t.frontAfter a := fun t => by
    unfold State.observed; rw [hbody]
  -- the observer first
  have hears := s.frameHeard_hears f (by rw [hsrc]; exact hne) hsound.ended fun _ _ => hcamp
  generalize hp : s.frameHeard f = p at hears
  have harrp : p.relink.arrival = .observed source a s.relink.front := by
    rw [hears.rest]
    simp [State.arrivalAfter, hbody, hactsOn, harr, hsrc]
  have hpi : p.entry i = s.entry i := hears.governed hgov
  have hbefore : p.frontBefore source a = s.relink.front := by
    unfold State.frontBefore
    rw [harrp]
    exact if_pos ⟨rfl, rfl⟩
  have hansp : p.Answers source a i := ⟨by rw [hears.acts]; exact hacts, ha, hears.facesAlone hi, by rw [hpi]; exact htakes⟩
  obtain ⟨u, hu, hexu⟩ := hansp.exec hv
  obtain ⟨w, hw, hexw⟩ := hans.exec hv
  rw [hbefore, hpi] at hu
  rw [s.frontBefore_of_none source a harr] at hw
  have hpc : p.relink.campaign = s.relink.campaign := by rw [hears.rest]; exact s.observed_campaign f
  have hpt : p.relink.settleTimer = s.relink.settleTimer := by
    rw [hears.rest]
    show (s.observed f).settleTimer = _
    unfold State.observed
    rw [hbody]
  have hpf : p.relink.front = s.frontAfter a := by rw [hears.rest]; exact hobsFront s
  have hset : u.settled ↔ w.settled := hw.settled_iff hu hpc hpt hears.highway fun j => (hears.entries j).relinking
  -- the acting block first
  have hq : w.endIfSettled.cardSlot = s.cardSlot := by
    by_cases h : w.settled
    · rw [w.endIfSettled_of_settled h]; exact hw.part.1
    · rw [w.endIfSettled_of_not h]; exact hw.part.1
  have hwi : w.endIfSettled.entry i = _ := (w.endIfSettled_entry i).trans hw.entry
  have hqhears := w.endIfSettled.frameHeard_hears f (by rw [hsrc, hq]; exact hne) w.endIfSettled_not_settled fun j hj => by
    by_cases h : w.settled
    · rw [State.endIfSettled_entry] at hj
      have := h.2.2 j
      rw [hj] at this
      cases this
    · rw [w.endIfSettled_of_not h, hw.campaign]
      exact hcamp
  generalize hv' : w.endIfSettled.frameHeard f = v at hqhears
  have hvi : v.entry i = w.endIfSettled.entry i := by
    rcases hqhears.entries i with h | ⟨hd, -, -⟩
    · exact h
    · rw [hwi] at hd
      rcases hv with h | h <;> cases hh : s.switch.highway <;> rw [h, hh] at hd <;> cases hd
  have hvf : v.relink.front = w.endIfSettled.frontAfter a := by rw [hqhears.rest]; exact hobsFront _
  have hqr : w.endIfSettled.running = true := by
    rw [w.endIfSettled_abides.running]
    unfold State.running
    rw [hw.part.2]
    exact hr
  refine ⟨p, w.endIfSettled, u.endIfSettled, v, by rw [exec_frameObserved_heard s f hr hwf, hp], hexu, hexw,
    by rw [exec_frameObserved_heard _ f hqr hwf, hv'], ?_, ?_, ?_⟩
  · rw [State.endIfSettled_entry, hu.entry, hvi, hwi]
  · rw [State.endIfSettled_entry, hu.entry]
    exact keyBelow_iff _ _
  · rw [hvf]
    by_cases h : w.settled
    · rw [u.endIfSettled_of_settled (hset.2 h), w.endIfSettled_of_settled h, State.frontAfter_of_steady _ a rfl]
      rfl
    · rw [u.endIfSettled_of_not fun hs => h (hset.1 hs), w.endIfSettled_of_not h, hu.front, hpf]
      unfold State.frontAfter
      rw [hw.campaign, hw.front]

end Sys2Proof.Machine

/-! What the outcomes of the frames of this station do (O27, O28, O29). -/

namespace Sys2Proof.Machine

/-! ### Which outcomes a frame can have (R66) -/

theorem SendOutcome.fits_iff (o : SendOutcome) (p : SendPhase) :
    SendOutcome.fits o p = true ↔ SendOutcome.possible o p := by
  unfold SendOutcome.possible
  cases o <;> simp [SendOutcome.fits]

theorem State.ending_of_possible {s : State} {o : SendOutcome} {f : TxFrame} (hr : s.running = true)
    (hb : s.line.buffer = some f) (ho : SendOutcome.possible o f.phase) : s.ending o = some f :=
  (s.ending_eq o f hr hb).trans (if_pos ((SendOutcome.fits_iff _ _).2 ho))

theorem State.ending_of_impossible {s : State} {o : SendOutcome} {f : TxFrame} (hr : s.running = true)
    (hb : s.line.buffer = some f) (ho : ¬ SendOutcome.possible o f.phase) : s.ending o = none :=
  (s.ending_eq o f hr hb).trans (if_neg fun h => ho ((SendOutcome.fits_iff _ _).1 h))

/-- The outcomes that a frame may have at any moment complete it, or abort it (R66). -/
theorem SendOutcome.possible_of_ne {o : SendOutcome} (h : o ≠ .lost) (hg : ∀ gap, o ≠ .outputFailed gap)
    (p : SendPhase) : SendOutcome.possible o p := fun _ => ⟨h, hg⟩

/-- The outcomes of a frame that has not been completed. -/
def SendOutcome.unsent (o : SendOutcome) : Prop := o = .lost ∨ o = .aborted ∨ ∃ gap, o = .outputFailed gap

theorem SendOutcome.unsent_iff (o : SendOutcome) : SendOutcome.unsent o ↔ SendOutcome.completes o = false := by
  cases o <;> simp [SendOutcome.unsent, SendOutcome.completes]

/-! ### BID (R92 to R94) -/

theorem exec_bidOutcome_of_impossible {s : State} {o : SendOutcome} {f : TxFrame} (hr : s.running = true)
    (hb : s.line.buffer = some f) (ho : ¬ SendOutcome.possible o f.phase) : exec (.bidOutcome o) s = .next s := by
  show execBidOutcome o s = _
  unfold execBidOutcome
  rw [State.ending_of_impossible hr hb ho]

theorem exec_bidOutcome_of_bid {s : State} {o : SendOutcome} {source far : CardSlot} {b : Bid} {owner : Option Index}
    {phase : SendPhase} (hr : s.running = true) (hb : s.line.buffer = some ⟨⟨source, .card far, .bid b⟩, owner, phase⟩)
    (ho : SendOutcome.possible o phase) :
    exec (.bidOutcome o) s = .next ((s.sendEnded o).bidOutcomeAt owner far b o) := by
  show execBidOutcome o s = _
  unfold execBidOutcome
  rw [State.ending_of_possible hr hb ho]
  dsimp only
  rw [State.onLine_endSend]

theorem State.bidEnds_unsent (s : State) (i : Index) (n : Nat) (o : SendOutcome) (h : SendOutcome.unsent o) :
    s.bidEnds i n o = s := by
  rcases h with rfl | rfl | ⟨gap, rfl⟩ <;> rfl

theorem State.bidOutcomeAt_of_not (s : State) (i : Index) (far : CardSlot) (b : Bid) (o : SendOutcome)
    (h : ¬ ((s.entry i).state = .pending ∧ (s.entry i).role = .origin ∧ (s.entry i).circuit = b.circuit
      ∧ (s.entry i).farSlot = far)) : s.bidOutcomeAt (some i) far b o = s :=
  if_neg fun hs => h ((Entry.sentBid_iff _ b far).1 hs)

theorem State.bidOutcomeAt_of_sent (s : State) (i : Index) (far : CardSlot) (b : Bid) (o : SendOutcome)
    (h : (s.entry i).state = .pending ∧ (s.entry i).role = .origin ∧ (s.entry i).circuit = b.circuit
      ∧ (s.entry i).farSlot = far) : s.bidOutcomeAt (some i) far b o = s.bidEnds i b.attempt o :=
  if_pos ((Entry.sentBid_iff _ b far).2 h)

/-- The third miss of a BID that drew no receipt defers its entry (R93, R94). -/
theorem State.bidEnds_deferred (s : State) (i : Index) (n : Nat) (h : 3 ≤ n) : s.bidEnds i n .noReceipt =
    s.withEntry i { s.entry i with
      state := .deferred, attempt := n, misses := n, deadline := some (s.now + s.settings.p) } := by
  show (if n < Config.missLimit then _ else _) = _
  rw [if_neg (show ¬ n < Config.missLimit from Nat.not_lt.2 h)]
  show ((s.withEntry i { s.entry i with attempt := n, misses := n }).onEntry i fun e =>
    { e with state := .deferred, misses := n, deadline := some (s.now + s.settings.p) }) = _
  rw [State.onEntry_eq, State.withEntry_entry_self]
  exact s.withEntry_withEntry i _ _

/-- Settles O27: a receipt, a miss, the third miss, and the outcomes that leave the entry as it was. -/
theorem bidOutcomeMovesEntry : Obligations.BidOutcomeMovesEntry := by
  intro s o source far b owner phase hr hb
  refine ⟨fun ho => exec_bidOutcome_of_impossible hr hb ho, fun ho howner => ?_, fun i ho howner => ?_⟩
  · rw [exec_bidOutcome_of_bid hr hb ho, howner]
    rfl
  · have run := exec_bidOutcome_of_bid hr hb ho
    rw [howner] at run
    have sent := (s.sendEnded o).bidOutcomeAt_of_sent i far b o
    have unsent : SendOutcome.unsent o → (s.sendEnded o).bidOutcomeAt (some i) far b o = s.sendEnded o := fun h => by
      by_cases hs : (s.entry i).state = .pending ∧ (s.entry i).role = .origin ∧ (s.entry i).circuit = b.circuit
          ∧ (s.entry i).farSlot = far
      · exact (sent hs).trans (State.bidEnds_unsent _ i _ o h)
      · exact State.bidOutcomeAt_of_not (s.sendEnded o) i far b o hs
    refine ⟨fun hn => ?_, fun hs hrec => ?_, fun hs hno hlt => ?_, fun hs hno hle => ?_, fun hun => ?_⟩
    · rw [run, State.bidOutcomeAt_of_not (s.sendEnded o) i far b o hn]
    · rw [run, sent hs]
      rcases hrec with rfl | rfl <;> rfl
    · rw [run, sent hs, hno]
      exact congrArg _ (if_pos hlt)
    · rw [run, sent hs, hno, State.bidEnds_deferred (s.sendEnded _) i _ hle]
      rfl
    · rw [run, unsent hun]

/-! ### ANSWER, DROP and ROLL (R77, R83, R104, R113) -/

theorem exec_answerOutcome_of_impossible {s : State} {o : SendOutcome} {f : TxFrame} (hr : s.running = true)
    (hb : s.line.buffer = some f) (ho : ¬ SendOutcome.possible o f.phase) : exec (.answerOutcome o) s = .next s := by
  show execAnswerOutcome o s = _
  unfold execAnswerOutcome
  rw [State.ending_of_impossible hr hb ho]

theorem exec_answerOutcome_of_answer {s : State} {o : SendOutcome} {source dest : CardSlot} {a : Answer} {owner : Option Index}
    {phase : SendPhase} (hr : s.running = true) (hb : s.line.buffer = some ⟨⟨source, .card dest, .answer a⟩, owner, phase⟩)
    (ho : SendOutcome.possible o phase) : exec (.answerOutcome o) s = .next
      { s.sendEnded o with relink := { s.relink with answers := answersAfter s.relink.answers a dest o } } := by
  show execAnswerOutcome o s = _
  unfold execAnswerOutcome
  rw [State.ending_of_possible hr hb ho]
  dsimp only
  rw [State.onLine_endSend]
  rfl

theorem answersAfter_unsent (l : List AnswerItem) (a : Answer) (dest : CardSlot) (o : SendOutcome)
    (h : SendOutcome.unsent o) : answersAfter l a dest o = l := by
  rcases h with rfl | rfl | ⟨gap, rfl⟩ <;> rfl

theorem AnswerItem.isSent_iff (a : Answer) (origin : CardSlot) (x : AnswerItem) : AnswerItem.isSent a origin x = true ↔
    x.circuit = a.circuit ∧ x.origin = origin ∧ x.attempt = a.attempt ∧ x.verdict = a.verdict := by
  simp [AnswerItem.isSent, AnswerItem.isFor, and_assoc]

theorem answersAfter_sent (l : List AnswerItem) (a : Answer) (dest : CardSlot) (o : SendOutcome)
    (h : ¬ SendOutcome.unsent o) : answersAfter l a dest o = l.filter fun x =>
      decide (¬ (x.circuit = a.circuit ∧ x.origin = dest ∧ x.attempt = a.attempt ∧ x.verdict = a.verdict)) := by
  have hl : (l.filter fun x => !AnswerItem.isSent a dest x) = l.filter fun x =>
      decide (¬ (x.circuit = a.circuit ∧ x.origin = dest ∧ x.attempt = a.attempt ∧ x.verdict = a.verdict)) :=
    List.filter_congr fun x _ => by
      rw [Bool.eq_iff_iff, Bool.not_eq_true', Bool.eq_false_iff, Ne, AnswerItem.isSent_iff, decide_eq_true_eq]
  rw [← hl]
  cases o with
  | taken => rfl
  | busy => rfl
  | noReceipt => rfl
  | lost => exact absurd (.inl rfl) h
  | outputFailed gap => exact absurd (.inr (.inr ⟨gap, rfl⟩)) h
  | aborted => exact absurd (.inr (.inl rfl)) h

theorem exec_dropOutcome_of_impossible {s : State} {o : SendOutcome} {f : TxFrame} (hr : s.running = true)
    (hb : s.line.buffer = some f) (ho : ¬ SendOutcome.possible o f.phase) : exec (.dropOutcome o) s = .next s := by
  show execDropOutcome o s = _
  unfold execDropOutcome
  rw [State.ending_of_impossible hr hb ho]

theorem exec_dropOutcome_of_drop {s : State} {o : SendOutcome} {source : CardSlot} {dest : Destination} {b : Drop}
    {owner : Option Index} {phase : SendPhase} (hr : s.running = true)
    (hb : s.line.buffer = some ⟨⟨source, dest, .drop b⟩, owner, phase⟩) (ho : SendOutcome.possible o phase) :
    exec (.dropOutcome o) s = .next ((s.sendEnded o).dropEnds o) := by
  show execDropOutcome o s = _
  unfold execDropOutcome
  rw [State.ending_of_possible hr hb ho]
  dsimp only
  rw [State.onLine_endSend]

theorem State.dropEnds_unsent (s : State) (o : SendOutcome) (h : SendOutcome.unsent o) : s.dropEnds o = s := by
  rcases h with rfl | rfl | ⟨gap, rfl⟩ <;> rfl

theorem State.dropUnreceipted_eq (s : State) {d : DropItem} {rest : List DropItem} (h : s.relink.drops = d :: rest) :
    s.dropUnreceipted = if d.sends + 1 < 4 then
        { s with relink := { s.relink with drops := { d with sends := d.sends + 1 } :: rest } }
      else { s with
        relink := { s.relink with drops := rest }
        port := s.port.posted [⟨.dropUndelivered, 0xFF, hiByte d.circuit, loByte d.circuit⟩] } := by
  unfold State.dropUnreceipted
  rw [h]
  dsimp only
  rw [State.post_eq]
  rfl

theorem exec_rollOutcome_of_roll {s : State} {o : RollOutcome} {source : CardSlot} {dest : Destination} {x : Roll}
    {owner : Option Index} {phase : SendPhase} (hr : s.running = true)
    (hb : s.line.buffer = some ⟨⟨source, dest, .roll x⟩, owner, phase⟩)
    (ho : SendOutcome.possible (RollOutcome.toSend o) phase) :
    exec (.rollOutcome o) s = .next ((s.sendEnded (RollOutcome.toSend o)).rollEnds o) := by
  show execRollOutcome o s = _
  unfold execRollOutcome
  rw [State.ending_of_possible hr hb ho]
  dsimp only
  rw [State.onLine_endSend]

theorem exec_rollOutcome_of_impossible {s : State} {o : RollOutcome} {f : TxFrame} (hr : s.running = true)
    (hb : s.line.buffer = some f) (ho : ¬ SendOutcome.possible (RollOutcome.toSend o) f.phase) :
    exec (.rollOutcome o) s = .next s := by
  show execRollOutcome o s = _
  unfold execRollOutcome
  rw [State.ending_of_impossible hr hb ho]

/-- Settles O28: the three kinds of frame, each by its outcome. -/
theorem listsFollowOutcomes : Obligations.ListsFollowOutcomes := by
  intro s o source dest phase hr
  refine ⟨fun a owner hb => ⟨fun ho => exec_answerOutcome_of_impossible hr hb ho, fun ho => ?_⟩,
    fun b owner hb ho => exec_dropOutcome_of_impossible hr hb ho, fun b owner d rest hb hd ho => ?_,
    fun x owner gap hb => ?_⟩
  · exact ⟨_, exec_answerOutcome_of_answer hr hb ho, answersAfter_unsent _ a dest o, answersAfter_sent _ a dest o⟩
  · have run := exec_dropOutcome_of_drop hr hb ho
    have hd' : (s.sendEnded o).relink.drops = d :: rest := hd
    refine ⟨fun hrec => ?_, fun hno hlt => ?_, fun hno heq => ?_, fun hun => ?_⟩
    · have htail : (s.sendEnded o).dropEnds o = { s.sendEnded o with relink := { s.relink with drops := s.relink.drops.tail } } := by
        rcases hrec with rfl | rfl <;> rfl
      rw [run, htail, hd]
      rfl
    · have hun : (s.sendEnded o).dropEnds o = (s.sendEnded o).dropUnreceipted := by rw [hno]; rfl
      rw [run, hun, State.dropUnreceipted_eq _ hd', if_pos (show d.sends + 1 < 4 by omega)]
      rfl
    · have hun : (s.sendEnded o).dropEnds o = (s.sendEnded o).dropUnreceipted := by rw [hno]; rfl
      rw [run, hun, State.dropUnreceipted_eq _ hd', if_neg (show ¬ d.sends + 1 < 4 by omega)]
      rfl
    · rw [run, State.dropEnds_unsent _ o hun]
  · refine ⟨?_, ?_, fun hp => ⟨?_, ?_⟩, fun hp => ⟨?_, ?_⟩⟩
    · exact exec_rollOutcome_of_roll hr hb (SendOutcome.possible_of_ne (o := .noReceipt) nofun nofun phase)
    · exact exec_rollOutcome_of_roll hr hb (SendOutcome.possible_of_ne (o := .aborted) nofun nofun phase)
    · exact exec_rollOutcome_of_impossible hr hb fun h => (h hp).1 rfl
    · exact exec_rollOutcome_of_impossible hr hb fun h => (h hp).2 gap rfl
    · exact exec_rollOutcome_of_roll hr hb fun h => absurd h hp
    · exact exec_rollOutcome_of_roll hr hb fun h => absurd h hp

/-! ### CARRY (R142 to R148) -/

theorem exec_carryOutcome_of_impossible {s : State} {o : SendOutcome} {f : TxFrame} (hr : s.running = true)
    (hb : s.line.buffer = some f) (ho : ¬ SendOutcome.possible o f.phase) : exec (.carryOutcome o) s = .next s := by
  show execCarryOutcome o s = _
  unfold execCarryOutcome
  rw [State.ending_of_impossible hr hb ho]

theorem exec_carryOutcome_of_carry {s : State} {o : SendOutcome} {source : CardSlot} {dest : Destination} {c : Carry}
    {owner : Option Index} {phase : SendPhase} (hr : s.running = true)
    (hb : s.line.buffer = some ⟨⟨source, dest, .carry c⟩, owner, phase⟩) (ho : SendOutcome.possible o phase) :
    exec (.carryOutcome o) s = .next
      (match s.markedEntry with
        | some i => (s.sendEnded o).carryEnds i o
        | none => s.sendEnded o) := by
  show execCarryOutcome o s = _
  unfold execCarryOutcome
  rw [State.ending_of_possible hr hb ho]
  dsimp only
  rw [State.onLine_endSend]
  rfl

theorem State.markedEntry_eq_none {s : State} (h : ∀ u ∈ s.units, u.inFlight = false) : s.markedEntry = none := by
  simpa [State.markedEntry] using h

theorem State.markedEntry_eq_some {s : State} {i : Index} (he : ∃ u ∈ s.units, u.inFlight = true)
    (hu : ∀ u ∈ s.units, u.inFlight = true → u.entry = i) : s.markedEntry = some i := by
  unfold State.markedEntry
  cases hf : s.units.find? fun u => u.inFlight with
  | none =>
    obtain ⟨u, hm, hin⟩ := he
    exact absurd hin (List.find?_eq_none.1 hf u hm)
  | some u => exact congrArg some (hu u (List.mem_of_find?_eq_some hf) (List.find?_some (p := fun u : QueuedUnit => u.inFlight) hf))

/-- Units that were not taken stay unmarked, and nothing else moves where no strike counts (R144, R145, R147). -/
theorem State.carryEnds_unmarks (s : State) (i : Index) (o : SendOutcome) (ho : o ≠ .taken)
    (h : SendOutcome.unsent o ∨ (s.entry i).state.agreed = false) : s.carryEnds i o = s.unmarkUnits := by
  cases o with
  | taken => exact absurd rfl ho
  | busy =>
    rcases h with h | h
    · rcases h with h | h | ⟨gap, h⟩ <;> cases h
    · exact if_neg (by rw [h]; nofun)
  | noReceipt =>
    rcases h with h | h
    · rcases h with h | h | ⟨gap, h⟩ <;> cases h
    · exact if_neg (by rw [h]; nofun)
  | lost => rfl
  | outputFailed gap => rfl
  | aborted => rfl

theorem State.carryEnds_released (s : State) (i : Index) (h : (s.entry i).state.agreed = false) :
    s.carryEnds i .taken = s.setUnits (s.units.filter fun u => !u.inFlight) := if_neg (by rw [h]; nofun)

theorem State.carryEnds_taken (s : State) (i : Index) (h : (s.entry i).state.agreed = true) : s.carryEnds i .taken =
    (s.setUnits (s.units.filter fun u => !u.inFlight)).withEntry i { s.entry i with noReceipt := 0, busy := 0 } :=
  if_pos h

theorem State.carryEnds_noReceipt (s : State) (i : Index) (h : (s.entry i).state.agreed = true) :
    s.carryEnds i .noReceipt =
      if 4 ≤ (s.entry i).noReceipt + 1 then
        (s.unmarkUnits.withEntry i { s.entry i with noReceipt := (s.entry i).noReceipt + 1, busy := 0 }).pendingAs i 0
      else s.unmarkUnits.withEntry i { s.entry i with noReceipt := (s.entry i).noReceipt + 1, busy := 0 } := by
  refine (if_pos h).trans ?_
  unfold State.strikeNoReceipt
  dsimp only
  rw [State.onEntry_entry_self, State.moveToPending_eq]
  rfl

theorem State.carryEnds_busy (s : State) (i : Index) (h : (s.entry i).state.agreed = true) :
    s.carryEnds i .busy =
      if 64 ≤ (s.entry i).busy + 1 then
        (s.unmarkUnits.withEntry i { s.entry i with noReceipt := 0, busy := (s.entry i).busy + 1 }).pendingAs i 0
      else s.unmarkUnits.withEntry i { s.entry i with noReceipt := 0, busy := (s.entry i).busy + 1 } := by
  refine (if_pos h).trans ?_
  unfold State.strikeBusy
  dsimp only
  rw [State.onEntry_entry_self, State.moveToPending_eq]
  rfl

/-- A ROLL WARM between a CARRY and its outcome: no strike counts (R148). -/
theorem exec_carryOutcome_pending {s : State} {o : SendOutcome} {source : CardSlot} {dest : Destination} {c : Carry}
    {owner : Option Index} {phase : SendPhase} {i : Index} (hr : s.running = true)
    (hb : s.line.buffer = some ⟨⟨source, dest, .carry c⟩, owner, phase⟩) (ho : SendOutcome.possible o phase)
    (hm : s.markedEntry = some i) (hs : (s.entry i).state = .pending) : ∃ t, exec (.carryOutcome o) s = .next t
      ∧ t.table = s.table ∧ (o = .taken → t.units = s.units.filter fun u => !u.inFlight)
      ∧ (o ≠ .taken → t.units = s.units.map fun u => { u with inFlight := false }) := by
  have ha : ((s.sendEnded o).entry i).state.agreed = false := by
    show (s.entry i).state.agreed = false
    rw [hs]
    rfl
  refine ⟨_, by rw [exec_carryOutcome_of_carry hr hb ho, hm], ?_⟩
  by_cases hot : o = .taken
  · subst hot
    dsimp only
    rw [State.carryEnds_released (s.sendEnded _) i ha]
    exact ⟨rfl, fun _ => rfl, fun h => absurd rfl h⟩
  · dsimp only
    rw [State.carryEnds_unmarks (s.sendEnded _) i o hot (.inr ha)]
    exact ⟨rfl, fun h => absurd h hot, fun _ => rfl⟩

/-- Settles O29: what releases, what strikes, what strikes out, and what a ROLL WARM before the outcome leaves of it. -/
theorem carryOutcomeReleasesOrStrikes : Obligations.CarryOutcomeReleasesOrStrikes := by
  intro s o source far c owner phase hr hb
  refine ⟨fun ho => exec_carryOutcome_of_impossible hr hb ho, fun ho hno => ?_, fun i ho hex hall => ?_⟩
  · rw [exec_carryOutcome_of_carry hr hb ho, State.markedEntry_eq_none hno]
  · have hm := State.markedEntry_eq_some hex hall
    have run : exec (.carryOutcome o) s = .next ((s.sendEnded o).carryEnds i o) := by
      rw [exec_carryOutcome_of_carry hr hb ho, hm]
    rw [run]
    dsimp only
    rw [← EntryState.agreed_iff, Bool.not_eq_true]
    refine ⟨fun hot ha => ?_, fun hot ha => ?_, fun hon ha hlt => ?_, fun hon ha heq => ?_, fun hob ha hlt => ?_,
      fun hob ha heq => ?_, fun hon ha => ?_, fun hun => ?_, fun figure hacts hst => ?_⟩
    · rw [hot, State.carryEnds_taken (s.sendEnded _) i ha]; rfl
    · rw [hot, State.carryEnds_released (s.sendEnded _) i ha]; rfl
    · rw [hon, State.carryEnds_noReceipt (s.sendEnded _) i ha]; exact congrArg _ (if_neg (show ¬ 4 ≤ (s.entry i).noReceipt + 1 by omega))
    · rw [hon, State.carryEnds_noReceipt (s.sendEnded _) i ha]; exact congrArg _ (if_pos (show 4 ≤ (s.entry i).noReceipt + 1 by omega))
    · rw [hob, State.carryEnds_busy (s.sendEnded _) i ha]; exact congrArg _ (if_neg (show ¬ 64 ≤ (s.entry i).busy + 1 by omega))
    · rw [hob, State.carryEnds_busy (s.sendEnded _) i ha]; exact congrArg _ (if_pos (show 64 ≤ (s.entry i).busy + 1 by omega))
    · have hot : o ≠ .taken := by rcases hon with rfl | rfl <;> nofun
      rw [State.carryEnds_unmarks (s.sendEnded _) i o hot (.inr ha)]
      rfl
    · have hot : o ≠ .taken := by rcases hun with rfl | rfl | ⟨gap, rfl⟩ <;> nofun
      rw [State.carryEnds_unmarks (s.sendEnded _) i o hot (.inl hun)]
      rfl
    · have hrun := s.rollWarm_running (s.entry i).farSlot figure
      have hex' : exec (.rollWarmReceived (s.entry i).farSlot figure) s = .next
          ((s.receipted ⟨(s.entry i).farSlot, .every, .roll ⟨.warm, figure⟩⟩ none).rolled.rolledWarm (s.entry i).farSlot) := by
        rw [execRollWarmReceived_eq _ figure s hacts, State.rollWarmPass_eq]
      obtain ⟨u, hu, -, hents, -, hunits, hbuf, -⟩ := rollWarmReturnsFacingEntries s (s.entry i).farSlot figure hacts
      have hueq := Host.Outcome.next.inj (hex'.symm.trans hu)
      have hpend : (u.entry i).state = .pending := (hents i rfl hst).1
      have hmu : u.markedEntry = some i := by
        unfold State.markedEntry
        rw [hunits]
        exact hm
      obtain ⟨t, ht, htab, htaken, hnot⟩ := exec_carryOutcome_pending (s := u) (o := o) (by rw [← hueq, hrun]; exact hr)
        (by rw [hbuf]; exact hb) ho hmu hpend
      exact ⟨u, t, hu, hunits, ht, hpend, htab, by rw [← hunits]; exact htaken, by rw [← hunits]; exact hnot⟩

end Sys2Proof.Machine

/-! Gather close, the timers and the deadlines (O30, O31). -/

namespace Sys2Proof.Machine

/-! ### Gather close (R78 to R80) -/

/-- What the expiry check reads besides the entry stands. -/
def State.SortsAs (s t : State) : Prop :=
  t.settings = s.settings ∧ t.supply = s.supply ∧ t.now = s.now ∧ t.relink.roster = s.relink.roster

/-- An entry that M outlasts fails, with a DROP from the ORIGIN role (R78). -/
def State.expiredAs (e : Index → Entry) (i : Index) (v : State) : State :=
  if (e i).role = .origin then (v.failedAs i .expired none).dropped (e i).circuit (e i).farSlot .expired
  else v.failedAs i .expired none

theorem State.dropped_sortsAs (s : State) (c : Circuit) (f : CardSlot) (r : DropReason) : s.SortsAs (s.dropped c f r) := by
  unfold State.dropped
  split
  · exact ⟨rfl, rfl, rfl, rfl⟩
  · split <;> exact ⟨rfl, rfl, rfl, rfl⟩

theorem State.SortsAs.trans {s t u : State} (h : s.SortsAs t) (g : t.SortsAs u) : s.SortsAs u := by
  obtain ⟨h1, h2, h3, h4⟩ := h
  obtain ⟨g1, g2, g3, g4⟩ := g
  exact ⟨g1.trans h1, g2.trans h2, g3.trans h3, g4.trans h4⟩

theorem State.SortsAs.expiredAs {s v : State} (h : s.SortsAs v) (e : Index → Entry) (i : Index) :
    s.SortsAs (v.expiredAs e i) := by
  unfold State.expiredAs
  split
  · exact (State.SortsAs.trans (t := v.failedAs i .expired none) h (State.dropped_sortsAs _ _ _ _))
  · exact h

theorem State.expiredAs_entry (e : Index → Entry) (v : State) (i j : Index) : (v.expiredAs e i).entry j =
    if i = j then { v.entry i with state := .failed, failure := some ⟨.expired, none⟩, deadline := none }
    else v.entry j := by
  unfold State.expiredAs
  split
  · exact (State.dropped_entry _ _ _ _ j).trans (v.failedAs_entry i j _ _)
  · exact v.failedAs_entry i j _ _

/-- The PENDING entry of a class that M outlasts (R78). -/
def State.expires (s : State) (i : Index) : Bool :=
  decide ((s.entry i).state = .pending ∧ s.settings.limit (s.entry i).cls < s.supply.m)

/-- The entries after the first pass of gather close. -/
@[irreducible] def State.expiredAll (s : State) : State :=
  ((List.finRange 64).filter s.expires).foldl (fun v i => v.expiredAs s.entry i) s

theorem Settings.survives_false (g : Settings) (c : BitVec 3) (figure : Nat) :
    g.survives c figure = false ↔ g.limit c < figure := by
  unfold Settings.survives
  rw [decide_eq_false_iff_not, Nat.not_le]

theorem State.expiryPass_eq (s : State) : s.eachEntry State.expiryCheck = s.expiredAll := by
  unfold State.expiredAll
  refine s.eachEntry_filter s.SortsAs s.expires _ (fun i v => v.expiredAs s.entry i) ⟨rfl, rfl, rfl, rfl⟩
    (fun i t ht hi => ?_) (fun i t ht => ht.expiredAs s.entry i) fun i j t hij => ?_
  · obtain ⟨hset, hsup, -, -⟩ := ht
    rw [State.expiryCheck_eq, hset, hsup, hi]
    simp only [Settings.survives_false, State.expires, decide_eq_true_eq]
    rfl
  · rw [State.expiredAs_entry, if_neg hij]

theorem State.expiredAll_sortsAs (s : State) : s.SortsAs s.expiredAll := by
  rw [← s.expiryPass_eq]
  refine s.eachEntry_induct s.SortsAs _ ⟨rfl, rfl, rfl, rfl⟩ fun i t ht => ?_
  have hcheck : t.expiryCheck i = if (t.entry i).state = .pending ∧ t.settings.survives (t.entry i).cls t.supply.m = false then
      t.expiredAs t.entry i else t := t.expiryCheck_eq i
  rw [hcheck]
  split
  · exact ht.expiredAs t.entry i
  · exact ht

theorem State.expiredAll_entry (s : State) (i : Index) : s.expiredAll.entry i =
    if s.expires i = true then
      { s.entry i with state := .failed, failure := some ⟨.expired, none⟩, deadline := none }
    else s.entry i := by
  unfold State.expiredAll
  refine (State.foldl_entry (fun i v => v.expiredAs s.entry i)
    (fun e => { e with state := .failed, failure := some ⟨.expired, none⟩, deadline := none })
    (fun i t => (t.expiredAs_entry s.entry i i).trans (if_pos rfl))
    (fun i j t hij => (t.expiredAs_entry s.entry i j).trans (if_neg hij)) _
    ((List.nodup_finRange 64).filter _) s i).trans (if_congr ?_ rfl rfl)
  rw [List.mem_filter]
  exact and_iff_right (List.mem_finRange i)

theorem State.expiredAll_entry_of_not (s : State) (i : Index) (h : s.expires i = false) : s.expiredAll.entry i = s.entry i := by
  rw [s.expiredAll_entry, if_neg (by rw [h]; exact Bool.false_ne_true)]

/-- The roster rule at an entry (R79): a PENDING origin whose far slot was not HEARD. -/
def State.rosterRuled (s : State) (e : Entry) : Entry :=
  if e.state = .pending ∧ e.role = .origin ∧ s.heard e.farSlot = false then
    { e with state := .deferred, misses := 3, deadline := some (s.now + s.settings.p) }
  else e

theorem State.rosterPass_eq (s : State) : s.eachEntry State.rosterRule =
    { s with table := Vector.ofFn fun i => s.rosterRuled (s.entry i) } := by
  refine s.eachEntry_onEntry State.rosterRule (fun _ => s.rosterRuled) fun i t ht => ?_
  have hheard : t.heard = s.heard := by rw [ht]; rfl
  have hnow : t.now + t.settings.p = s.now + s.settings.p := by rw [ht]; rfl
  rw [State.onEntry_eq]
  unfold State.rosterRule State.rosterRuled
  dsimp only
  rw [hheard]
  split
  · unfold State.moveToDeferred
    rw [hnow]
    rfl
  · exact (t.withEntry_self i).symm

/-- The three passes of gather close at an entry (R78, R79, R80). -/
def State.gathered (s : State) (i : Index) : Entry :=
  (s.rosterRuled (s.expiredAll.entry i)).withAbsent (s.now + s.settings.p)

/-- Gather close, in one form (R78 to R80). -/
theorem State.closeGather_sorts (s : State) : s.closeGather = { s.expiredAll with
    table := Vector.ofFn s.gathered
    relink := { s.expiredAll.relink with
      campaign := .contend, gatherTimer := none, settleTimer := .runsOutAt (s.now + s.settings.q) } } := by
  obtain ⟨hset, hsup, hnow, hroster⟩ := s.expiredAll_sortsAs
  have hsorted : s.gatherSorted = { s.expiredAll with table := Vector.ofFn fun i => s.rosterRuled (s.expiredAll.entry i) } := by
    have hruled : s.expiredAll.rosterRuled = s.rosterRuled := by
      funext e
      unfold State.rosterRuled State.heard
      rw [hset, hnow, hroster]
    unfold State.gatherSorted
    rw [State.expiryPass_eq, State.rosterPass_eq, hruled]
  have htab : (Vector.ofFn fun i => s.rosterRuled (s.expiredAll.entry i)).map
      (Entry.withAbsent (s.now + s.settings.p)) = Vector.ofFn s.gathered :=
    Vector.ext fun i hi => by
      rw [Vector.getElem_map, Vector.getElem_ofFn, Vector.getElem_ofFn]
      rfl
  have hgset : s.gatherSorted.settings = s.settings := by
    unfold State.settings at hset ⊢
    rw [hsorted]
    exact hset
  have hgnow : s.gatherSorted.now = s.now := by rw [hsorted]; exact hnow
  rw [State.closeGather_eq, hgset, hgnow, hsorted, ← htab]

theorem exec_gatherClose_eq (s : State) (tick : Nat) (hr : s.running = true) (hc : s.relink.campaign = .gather)
    (ht : s.relink.gatherTimer = some tick) :
    exec .gatherClose s = .next ((s.elapseTo tick).closeGather).endIfSettled := by
  show execGatherClose s = _
  unfold execGatherClose
  rw [hr, hc, ht]

theorem State.gathered_pending_far (s : State) (i : Index) (hx : s.expires i = false) (hs : (s.entry i).state = .pending)
    (hr : (s.entry i).role = .far) : s.gathered i = { s.entry i with deadline := some (s.now + s.settings.p) } := by
  unfold State.gathered State.rosterRuled
  rw [s.expiredAll_entry_of_not i hx, if_neg (fun h => by rw [hr] at h; cases h.2.1),
    Entry.withAbsent_of _ _ ⟨hs, hr⟩]

theorem State.gathered_expired (s : State) (i : Index) (hx : s.expires i = true) : s.gathered i =
    { s.entry i with state := .failed, failure := some ⟨.expired, none⟩, deadline := none } := by
  unfold State.gathered State.rosterRuled
  rw [s.expiredAll_entry, if_pos hx, if_neg (fun h => by cases h.1), Entry.withAbsent_of_not _ _ fun h => by cases h.1]

theorem State.gathered_unheard (s : State) (i : Index) (hx : s.expires i = false) (hs : (s.entry i).state = .pending)
    (hr : (s.entry i).role = .origin) (hh : s.heard (s.entry i).farSlot = false) : s.gathered i =
      { s.entry i with state := .deferred, misses := 3, deadline := some (s.now + s.settings.p) } := by
  unfold State.gathered State.rosterRuled
  rw [s.expiredAll_entry_of_not i hx, if_pos ⟨hs, hr, hh⟩,
    Entry.withAbsent_of_not _ _ fun h => by cases h.1]

theorem State.gathered_heard (s : State) (i : Index) (hx : s.expires i = false)
    (hr : (s.entry i).role = .origin) (hh : s.heard (s.entry i).farSlot = true) : s.gathered i = s.entry i := by
  unfold State.gathered State.rosterRuled
  rw [s.expiredAll_entry_of_not i hx, if_neg (fun h => by rw [hh] at h; cases h.2.2),
    Entry.withAbsent_of_not _ _ fun h => by rw [hr] at h; cases h.2]

theorem State.gathered_other (s : State) (i : Index) (hs : (s.entry i).state ≠ .pending) : s.gathered i = s.entry i := by
  have hx : s.expires i = false := decide_eq_false fun h => hs h.1
  unfold State.gathered State.rosterRuled
  rw [s.expiredAll_entry_of_not i hx, if_neg (fun h => hs h.1), Entry.withAbsent_of_not _ _ fun h => hs h.1]

/-- Settles O30: the three passes, entry by entry, and CONTEND with the settle timer at Q. -/
theorem gatherCloseSortsPendingEntries : Obligations.GatherCloseSortsPendingEntries := by
  intro s tick hr hc ht
  have hu : (s.elapseTo tick).expiredAll = ((List.finRange 64).filter (s.elapseTo tick).expires).foldl
      (fun v i => v.expiredAs (s.elapseTo tick).entry i) (s.elapseTo tick) := by
    unfold State.expiredAll
    rfl
  refine ⟨_, by rw [exec_gatherClose_eq s tick hr hc ht, State.closeGather_sorts, State.endIfSettled_of_not _
    (State.not_settled_of_running rfl)], by rw [hu]; rfl, fun i hx => ?_, fun i hx hs hro hh => ?_, fun i hx hs hro hh => ?_,
    fun i hx hs hro => ?_, fun i hs => ?_⟩
  · exact (Vector.getElem_ofFn i.isLt).trans (State.gathered_expired _ i hx)
  · exact (Vector.getElem_ofFn i.isLt).trans (State.gathered_unheard _ i hx hs hro hh)
  · exact (Vector.getElem_ofFn i.isLt).trans (State.gathered_heard _ i hx hro hh)
  · exact (Vector.getElem_ofFn i.isLt).trans (State.gathered_pending_far _ i hx hs hro)
  · exact (Vector.getElem_ofFn i.isLt).trans (State.gathered_other _ i hs)

/-! ### The settle timer, the open bid, the answer timer and the deadlines (R81, R87, R95, R97, R102) -/

theorem exec_settleTimerExpiry_eq (s : State) (tick : Nat) (hr : s.running = true)
    (ht : s.relink.settleTimer = .runsOutAt tick) : exec .settleTimerExpiry s = .next
      ({ s.elapseTo tick with relink := { s.relink with settleTimer := .runOut } }).endIfSettled := by
  show execSettleTimerExpiry s = _
  unfold execSettleTimerExpiry
  rw [hr, ht]
  rfl

theorem exec_openBidExpiry_eq (s : State) (b : OpenBid) (hr : s.running = true) (hb : s.relink.openBid = some b) :
    exec .openBidExpiry s = .next
      { s.elapseTo (b.tick + s.settings.w) with relink := { s.relink with openBid := none } } := by
  show execOpenBidExpiry s = _
  unfold execOpenBidExpiry
  rw [hr, hb]
  rfl

theorem State.biddingEntry_unique (s : State) (i : Index) (hs : (s.entry i).state = .bidding)
    (hu : ∀ j, (s.entry j).state = .bidding → j = i) : s.biddingEntry = some i :=
  s.findEntry_unique _ i (by simp [hs]) fun j hj => hu j (by simpa using hj)

theorem exec_answerTimerExpiry_eq (s : State) (tick : Nat) (i : Index) (hr : s.running = true)
    (ht : s.relink.answerTimer = some tick) (hb : s.biddingEntry = some i) :
    exec .answerTimerExpiry s = .next ((s.elapseTo tick).answerTimeout i) := by
  show execAnswerTimerExpiry s = _
  unfold execAnswerTimerExpiry
  rw [hr, ht, hb]

theorem State.answerTimeout_returns (s : State) (i : Index) (h : (s.entry i).attempt < 3) :
    s.answerTimeout i = s.pendingAs i (s.entry i).attempt :=
  (if_pos h).trans (State.moveToPending_eq s i _)

theorem State.answerTimeout_defers (s : State) (i : Index) (hs : (s.entry i).state = .bidding)
    (h : 3 ≤ (s.entry i).attempt) : s.answerTimeout i =
      { s.withEntry i { s.entry i with
          state := .deferred, misses := (s.entry i).attempt, deadline := some (s.now + s.settings.p) } with
        relink := { s.relink with answerTimer := none } } := by
  have hti : s.timerWithout i = none := if_pos hs
  refine (if_neg (show ¬ (s.entry i).attempt < Config.missLimit from Nat.not_lt.2 h)).trans ?_
  rw [State.stopAnswerTimer_eq, hti]
  rfl

theorem exec_deferredDeadline_eq (s : State) (tick : Nat) (i : Index) (hr : s.running = true)
    (hs : (s.entry i).state = .deferred) (hd : (s.entry i).deadline = some tick) :
    exec (.deferredDeadline i) s = .next ((s.elapseTo tick).failedAs i .absent none).endIfSettled := by
  show execDeferredDeadline i s = _
  unfold execDeferredDeadline
  rw [hr, hs, hd]
  dsimp only
  rw [State.moveToFailed_eq]

theorem exec_absentDeadline_eq (s : State) (tick : Nat) (i : Index) (hr : s.running = true)
    (hs : (s.entry i).state = .pending) (hro : (s.entry i).role = .far) (hd : (s.entry i).deadline = some tick) :
    exec (.absentDeadline i) s = .next ((s.elapseTo tick).failedAs i .absent none).endIfSettled := by
  show execAbsentDeadline i s = _
  unfold execAbsentDeadline
  rw [hr, hs, hro, hd]
  dsimp only
  rw [State.moveToFailed_eq]

theorem EntryState.relinking_iff (st : EntryState) : st.relinking = true ↔
    st = .pending ∨ st = .bidding ∨ st = .checking ∨ st = .joining ∨ st = .deferred := by
  cases st <;> simp [EntryState.relinking]

/-- Settles O31: each timer and deadline by the command that takes it. -/
theorem timersAndDeadlinesRunOut : Obligations.TimersAndDeadlinesRunOut := by
  refine ⟨fun s tick hr ht hc => ⟨fun hrel => ?_, fun hrel => ?_⟩, EntryState.relinking_iff,
    fun s b => exec_openBidExpiry_eq s b, fun s tick => ⟨?_, rfl⟩, fun s tick i hr ht hs hu => ⟨fun hn => ?_, fun hn => ?_⟩,
    fun s tick i hr hs hd => ⟨_, exec_deferredDeadline_eq s tick i hr hs hd, State.endIfSettled_settles _⟩,
    fun s tick i hr hs hro hd => ⟨_, exec_absentDeadline_eq s tick i hr hs hro hd, State.endIfSettled_settles _⟩⟩
  · rw [exec_settleTimerExpiry_eq s tick hr ht]
    exact congrArg _ (State.endIfSettled_of_settled _ ⟨hc, rfl, hrel⟩)
  · obtain ⟨i, hi⟩ := hrel
    rw [exec_settleTimerExpiry_eq s tick hr ht]
    exact congrArg _ (State.endIfSettled_of_not _ (State.not_settled_of_relinking i hi))
  · show s.now + (tick - s.now) = max s.now tick
    omega
  · rw [exec_answerTimerExpiry_eq s tick i hr ht (s.biddingEntry_unique i hs hu),
      State.answerTimeout_returns (s.elapseTo tick) i hn]
    rfl
  · rw [exec_answerTimerExpiry_eq s tick i hr ht (s.biddingEntry_unique i hs hu),
      State.answerTimeout_defers (s.elapseTo tick) i hs hn]
    rfl

end Sys2Proof.Machine

/-! Idle checkers filled from the Check Queue, and the highway's return (O32). -/

namespace Sys2Proof.Machine

/-! ### Idle checkers take heads (R126) -/

/-- How many of the checkers below a number are idle. -/
def SlotSwitch.idleBefore (w : SlotSwitch) (k : Nat) : Nat :=
  ((List.finRange 4).filter fun j => decide (j.val < k ∧ w.checkers[j] = none)).length

/-- 1 where the checker is idle. -/
def SlotSwitch.idleAt (w : SlotSwitch) (k : Fin 4) : Nat := if w.checkers[k] = none then 1 else 0

theorem SlotSwitch.idleBefore_eq (w : SlotSwitch) (k : Nat) : w.idleBefore k =
    (if 0 < k then w.idleAt 0 else 0) + (if 1 < k then w.idleAt 1 else 0) + (if 2 < k then w.idleAt 2 else 0)
      + if 3 < k then w.idleAt 3 else 0 := by
  have h : ∀ j : Fin 4, ([j].filter fun j => decide (j.val < k ∧ w.checkers[j] = none)).length =
      if j.val < k then w.idleAt j else 0 := fun j => by
    unfold SlotSwitch.idleAt
    rw [List.filter_singleton]
    generalize w.checkers[j] = o
    by_cases hj : j.val < k
    · cases o <;> simp [hj]
    · simp [hj]
  unfold SlotSwitch.idleBefore
  rw [show List.finRange 4 = [0] ++ [1] ++ [2] ++ [3] from rfl, List.filter_append, List.filter_append, List.filter_append,
    List.length_append, List.length_append, List.length_append, h 0, h 1, h 2, h 3]
  rfl

/-- One checker more is one idle checker more where it is idle. -/
theorem SlotSwitch.idleBefore_succ (w : SlotSwitch) (k : Fin 4) :
    w.idleBefore (k.val + 1) = w.idleBefore k.val + w.idleAt k := by
  rw [w.idleBefore_eq, w.idleBefore_eq]
  match k with
  | 0 => simp
  | 1 => simp
  | 2 => simp
  | 3 => simp

/-- What the checkers below a number have taken, lowest first, in queue order (R126). -/
def SlotSwitch.filledTo (armed : Bool) (w : SlotSwitch) (k : Nat) : SlotSwitch :=
  { w with
    checkQueue := w.checkQueue.drop (w.idleBefore k)
    checkers := Vector.ofFn fun j =>
      if j.val < k then
        match w.checkers[j] with
        | some c => some c
        | none => (w.checkQueue[w.idleBefore j.val]?).map fun i => ⟨i, 0, armed⟩
      else w.checkers[j] }

theorem SlotSwitch.filledTo_checker (armed : Bool) (w : SlotSwitch) (k : Nat) (j : Fin 4) :
    (w.filledTo armed k).checkers[j] =
      if j.val < k then
        match w.checkers[j] with
        | some c => some c
        | none => (w.checkQueue[w.idleBefore j.val]?).map fun i => ⟨i, 0, armed⟩
      else w.checkers[j] := Vector.getElem_ofFn j.isLt

theorem SlotSwitch.filledTo_zero (armed : Bool) (w : SlotSwitch) : w.filledTo armed 0 = w := by
  have hc : (w.filledTo armed 0).checkers = w.checkers := Vector.ext fun j hj =>
    (w.filledTo_checker armed 0 ⟨j, hj⟩).trans (if_neg (Nat.not_lt_zero _))
  have hq : (w.filledTo armed 0).checkQueue = w.checkQueue := by
    show w.checkQueue.drop (w.idleBefore 0) = _
    rw [w.idleBefore_eq]
    rfl
  show { w with checkQueue := (w.filledTo armed 0).checkQueue, checkers := (w.filledTo armed 0).checkers } = w
  rw [hq, hc]

/-- Two fillings with the same queue and the same checkers are one. -/
theorem SlotSwitch.filledTo_ext {armed : Bool} {w v : SlotSwitch} {k : Nat} (hrest : v = { w with
      checkQueue := v.checkQueue, checkers := v.checkers })
    (hq : v.checkQueue = w.checkQueue.drop (w.idleBefore k))
    (hc : ∀ j : Fin 4, v.checkers[j] = (w.filledTo armed k).checkers[j]) : v = w.filledTo armed k := by
  have : v.checkers = (w.filledTo armed k).checkers := Vector.ext fun j hj => hc ⟨j, hj⟩
  rw [hrest, hq, this]
  rfl

/-- A checker is filled after those below it. -/
theorem SlotSwitch.fillOne_filledTo (armed : Bool) (w : SlotSwitch) (k : Fin 4) :
    (w.filledTo armed k.val).fillOne armed k = w.filledTo armed (k.val + 1) := by
  have hk : (w.filledTo armed k.val).checkers[k] = w.checkers[k] :=
    (w.filledTo_checker armed k.val k).trans (if_neg (Nat.lt_irrefl _))
  have others : ∀ j : Fin 4, k ≠ j → (w.filledTo armed (k.val + 1)).checkers[j] = (w.filledTo armed k.val).checkers[j] := by
    intro j hkj
    have : j.val < k.val + 1 ↔ j.val < k.val := by
      have := fun h : k.val = j.val => hkj (Fin.ext h)
      omega
    rw [SlotSwitch.filledTo_checker, SlotSwitch.filledTo_checker]
    exact if_congr this rfl rfl
  have self : (w.filledTo armed (k.val + 1)).checkers[k] =
      match w.checkers[k] with
        | some c => some c
        | none => (w.checkQueue[w.idleBefore k.val]?).map fun i => ⟨i, 0, armed⟩ :=
    (w.filledTo_checker armed (k.val + 1) k).trans (if_pos (Nat.lt_succ_self _))
  have hidle := w.idleBefore_succ k
  unfold SlotSwitch.fillOne
  cases hck : w.checkers[k] with
  | some c =>
    rw [hk, hck]
    refine SlotSwitch.filledTo_ext rfl ?_ fun j => ?_
    · rw [hidle, SlotSwitch.idleAt, if_neg (by rw [hck]; nofun)]
      rfl
    · by_cases hkj : k = j
      · subst hkj
        rw [self, hk, hck]
      · exact (others j hkj).symm
  | none =>
    have hidle' : w.idleBefore (k.val + 1) = w.idleBefore k.val + 1 := by rw [hidle, SlotSwitch.idleAt, if_pos hck]
    have hq0 : (w.filledTo armed k.val).checkQueue = w.checkQueue.drop (w.idleBefore k.val) := rfl
    have hdrop : w.checkQueue.drop (w.idleBefore (k.val + 1)) = (w.checkQueue.drop (w.idleBefore k.val)).tail := by
      rw [hidle', ← List.drop_one, List.drop_drop]
    have hhead : w.checkQueue[w.idleBefore k.val]? = (w.checkQueue.drop (w.idleBefore k.val)).head? := by
      rw [List.head?_drop]
    rw [hck] at self
    rw [hk, hck]
    cases hq : (w.filledTo armed k.val).checkQueue with
    | nil =>
      rw [hq0] at hq
      refine SlotSwitch.filledTo_ext rfl ?_ fun j => ?_
      · rw [hdrop, hq0, hq]
        rfl
      · by_cases hkj : k = j
        · subst hkj
          rw [self, hk, hck, hhead, hq]
          rfl
        · exact (others j hkj).symm
    | cons i rest =>
      rw [hq0] at hq
      refine SlotSwitch.filledTo_ext rfl ?_ fun j => ?_
      · rw [hdrop, hq]
        rfl
      · show ((w.filledTo armed k.val).checkers.set k (some ⟨i, 0, armed⟩))[j] = _
        rw [SlotSwitch.checker_set]
        split
        · next hkj =>
          subst hkj
          rw [self, hhead, hq]
          rfl
        · next hkj => exact (others j hkj).symm

/-- Idle checkers take heads, in one form (R126). -/
theorem SlotSwitch.fill_filled (armed : Bool) (w : SlotSwitch) : w.fill armed = w.filledTo armed 4 := by
  rw [SlotSwitch.fill_eq]
  have h0 := w.fillOne_filledTo armed 0
  have h1 := w.fillOne_filledTo armed 1
  have h2 := w.fillOne_filledTo armed 2
  have h3 := w.fillOne_filledTo armed 3
  rw [show (0 : Fin 4).val = 0 from rfl, SlotSwitch.filledTo_zero] at h0
  rw [h0]
  exact (congrArg (fun v => SlotSwitch.fillOne armed (SlotSwitch.fillOne armed v 2) 3) h1).trans
    ((congrArg (fun v => SlotSwitch.fillOne armed v 3) h2).trans h3)

theorem SlotSwitch.fill_eq_filled (armed : Bool) (w : SlotSwitch) : w.fill armed = { w with
    checkQueue := w.checkQueue.drop (w.idleBefore 4)
    checkers := Vector.ofFn fun k =>
      match w.checkers[k] with
      | some c => some c
      | none => (w.checkQueue[w.idleBefore k.val]?).map fun i => ⟨i, 0, armed⟩ } := by
  rw [SlotSwitch.fill_filled]
  unfold SlotSwitch.filledTo
  have : (fun j : Fin 4 => if j.val < 4 then
      (match w.checkers[j] with
        | some c => some c
        | none => (w.checkQueue[w.idleBefore j.val]?).map fun i => (⟨i, 0, armed⟩ : Checker))
      else w.checkers[j]) = fun j => match w.checkers[j] with
        | some c => some c
        | none => (w.checkQueue[w.idleBefore j.val]?).map fun i => ⟨i, 0, armed⟩ :=
    funext fun j => if_pos j.isLt
  rw [this]

/-- A checker at work keeps its index. -/
theorem SlotSwitch.fill_some (armed : Bool) (w : SlotSwitch) (k : Fin 4) (c : Checker) (h : w.checkers[k] = some c) :
    (w.fill armed).checkers[k] = some c := by
  rw [SlotSwitch.fill_filled, SlotSwitch.filledTo_checker, if_pos k.isLt, h]

theorem SlotSwitch.idleBefore_of_idle (w : SlotSwitch) (h : ∀ j : Fin 4, w.checkers[j] = none) (k : Nat) (hk : k ≤ 4) :
    w.idleBefore k = k := by
  have one : ∀ j, w.idleAt j = 1 := fun j => if_pos (h j)
  rw [w.idleBefore_eq, one, one, one, one]
  split <;> split <;> split <;> split <;> omega

/-! ### Syncs while the highway is LOST, and strays (R117, R118, R121) -/

theorem onTime_iff (cycles : Nat) : onTime cycles = true ↔ 2044 ≤ cycles ∧ cycles ≤ 2052 := by
  unfold onTime
  rw [Bool.and_eq_true, decide_eq_true_eq, decide_eq_true_eq]
  exact Iff.rfl

theorem exec_sync_of_lost (s : State) (cycles : Nat) (frame : HighwayFrame) (hr : s.running = true)
    (hl : s.switch.highway = .lost) : exec (.sync cycles frame) s = .next (s.syncLost cycles frame) := by
  show execSync cycles frame s = _
  unfold execSync
  rw [if_pos hr, hl]

theorem exec_sync_of_present (s : State) (cycles : Nat) (frame : HighwayFrame) (hr : s.running = true)
    (hp : s.switch.highway = .present) : exec (.sync cycles frame) s = .next (s.syncPresent cycles frame) := by
  show execSync cycles frame s = _
  unfold execSync
  rw [if_pos hr, hp]

theorem State.syncLost_counts (s : State) (cycles : Nat) (frame : HighwayFrame) (hn : s.switch.runCount ≠ 0)
    (ho : onTime cycles = true) (h : s.switch.runCount < 15) : s.syncLost cycles frame =
      { s with switch := { s.switch with runCount := s.switch.runCount + 1 } } := by
  unfold State.syncLost
  have hrun : (if s.switch.runCount ≠ 0 ∧ onTime cycles = true then s.switch.runCount + 1 else 1) =
    s.switch.runCount + 1 := if_pos ⟨hn, ho⟩
  rw [hrun]
  exact if_neg (show ¬ 16 ≤ s.switch.runCount + 1 by omega)

theorem State.syncLost_restarts (s : State) (cycles : Nat) (frame : HighwayFrame)
    (h : ¬ (s.switch.runCount ≠ 0 ∧ onTime cycles = true)) : s.syncLost cycles frame =
      { s with switch := { s.switch with runCount := 1 } } := by
  unfold State.syncLost
  have hrun : (if s.switch.runCount ≠ 0 ∧ onTime cycles = true then s.switch.runCount + 1 else 1) = 1 := if_neg h
  rw [hrun]
  exact if_neg (show ¬ 16 ≤ 1 by decide)

theorem State.syncLost_gains (s : State) (cycles : Nat) (frame : HighwayFrame) (hn : s.switch.runCount = 15)
    (ho : onTime cycles = true) : s.syncLost cycles frame = s.gainHighway frame := by
  unfold State.syncLost
  have hrun : (if s.switch.runCount ≠ 0 ∧ onTime cycles = true then s.switch.runCount + 1 else 1) =
    s.switch.runCount + 1 := if_pos ⟨by omega, ho⟩
  rw [hrun]
  exact if_pos (show 16 ≤ s.switch.runCount + 1 by omega)

theorem exec_runTimeout_of_lost (s : State) (hr : s.running = true) (hl : s.switch.highway = .lost) :
    exec .runTimeout s = .next { s with switch := { s.switch with runCount := 0 } } := by
  show execRunTimeout s = _
  unfold execRunTimeout
  rw [if_pos ⟨hr, hl⟩]
  rfl

theorem State.parkedIndices_eq (s : State) :
    s.parkedIndices = (List.finRange 64).filter fun i => decide ((s.entry i).state = .parked) := rfl

/-- The return of the highway to a part whose checkers are idle and whose queue is empty (R121, R126). -/
theorem State.gainHighway_idle (s : State) (frame : HighwayFrame) (hq : s.switch.checkQueue = [])
    (hk : ∀ k : Fin 4, s.switch.checkers[k] = none) : s.gainHighway frame = { s with
      switch := { s.switch with
        highway := .present, runCount := 16, missing := 0, timing := some ⟨frame, 0⟩
        checkQueue := s.parkedIndices.drop 4
        checkers := Vector.ofFn fun k => s.parkedIndices[k.val]?.map fun i => ⟨i, 0, true⟩ }
      port := s.port.latching { s.live with lost := false } } := by
  rw [State.gainHighway_eq, SlotSwitch.fill_eq_filled]
  generalize hw : ({ s.switch with
      highway := .present, runCount := Config.syncRun, missing := 0, timing := some ⟨frame, 0⟩
      checkQueue := s.switch.checkQueue ++ s.parkedIndices } : SlotSwitch) = w
  have hwk : ∀ k : Fin 4, w.checkers[k] = none := fun k => by rw [← hw]; exact hk k
  have hwq : w.checkQueue = s.parkedIndices := by rw [← hw, hq]; rfl
  have hc : (Vector.ofFn fun k : Fin 4 => match w.checkers[k] with
      | some c => some c
      | none => (w.checkQueue[w.idleBefore k.val]?).map fun i => (⟨i, 0, true⟩ : Checker)) =
        Vector.ofFn fun k => s.parkedIndices[k.val]?.map fun i => ⟨i, 0, true⟩ := by
    congr 1
    funext k
    rw [hwk k, w.idleBefore_of_idle hwk k.val (Nat.le_of_lt k.isLt), hwq]
  rw [hc, w.idleBefore_of_idle hwk 4 (Nat.le_refl 4), hwq, ← hw]
  rfl

/-- Settles O32: the run count, its end, the stray, and the sixteenth sync. -/
theorem sixteenSyncsMakeHighwayPresent : Obligations.SixteenSyncsMakeHighwayPresent := by
  refine ⟨fun s cycles frame hr => ⟨fun hl hn hlo hhi hlt => ?_, fun hl h => ?_, fun hl => exec_runTimeout_of_lost s hr hl,
    fun hp h => ?_⟩, fun s cycles frame hr hl hn hlo hhi hs => ?_⟩
  · rw [exec_sync_of_lost s cycles frame hr hl, s.syncLost_counts cycles frame hn ((onTime_iff _).2 ⟨hlo, hhi⟩) hlt]
  · rw [exec_sync_of_lost s cycles frame hr hl, s.syncLost_restarts cycles frame]
    rw [onTime_iff]
    omega
  · rw [exec_sync_of_present s cycles frame hr hp]
    refine congrArg _ (if_neg ?_)
    rw [onTime_iff]
    omega
  · obtain ⟨hq, hk⟩ := hs.lost hl
    exact ⟨_, (exec_sync_of_lost s cycles frame hr hl).trans (congrArg _
      ((s.syncLost_gains cycles frame hn ((onTime_iff _).2 ⟨hlo, hhi⟩)).trans (s.gainHighway_idle frame hq hk))), rfl⟩

end Sys2Proof.Machine

/-! The highway slots still to pass, one after another, and what they leave as it is (O33, O34, O35). -/

namespace Sys2Proof.Machine

/-! ### What a highway slot leaves as it is -/

/-- The line, the CALIBRATION item, and what the Slot Switch knows of its frames. -/
structure State.RunsOn (s t : State) : Prop where
  line : t.line = s.line
  calFault : t.supply.calFault = s.supply.calFault
  missing : t.switch.missing = s.switch.missing
  timing : t.switch.timing = s.switch.timing

theorem State.RunsOn.refl (s : State) : s.RunsOn s := ⟨rfl, rfl, rfl, rfl⟩

theorem State.RunsOn.trans {s t u : State} (h : s.RunsOn t) (g : t.RunsOn u) : s.RunsOn u :=
  ⟨g.line.trans h.line, g.calFault.trans h.calFault, g.missing.trans h.missing, g.timing.trans h.timing⟩

theorem State.filled_runsOn (s : State) (b : Bool) : s.RunsOn (s.onSwitch fun w => w.fill b) :=
  ⟨rfl, rfl, SlotSwitch.fill_missing _ _, SlotSwitch.fill_timing _ _⟩

theorem State.endIfSettled_runsOn (s : State) : s.RunsOn s.endIfSettled := by
  by_cases h : s.settled
  · rw [s.endIfSettled_of_settled h]; exact ⟨rfl, rfl, rfl, rfl⟩
  · rw [s.endIfSettled_of_not h]; exact .refl s

theorem State.dropped_runsOn (s : State) (c : Circuit) (f : CardSlot) (r : DropReason) : s.RunsOn (s.dropped c f r) := by
  unfold State.dropped
  split
  · exact .refl s
  · split <;> exact ⟨rfl, rfl, rfl, rfl⟩

theorem State.failedAs_runsOn (s : State) (i : Index) (r : FailReason) (f : Option FarReason) :
    s.RunsOn (s.failedAs i r f) := by
  refine ⟨rfl, rfl, ?_, ?_⟩
  · exact SlotSwitch.fill_missing false _
  · exact SlotSwitch.fill_timing false _

theorem State.checkPass_runsOn (s : State) (i : Index) : s.RunsOn (s.checkPass i) := by
  rw [State.checkPass_eq]
  split <;> exact ⟨rfl, rfl, rfl, rfl⟩

theorem State.checkFail_runsOn (s : State) (i : Index) : s.RunsOn (s.checkFail i) := by
  have failed := s.failedAs_runsOn i .clash none
  rw [State.checkFail_eq]
  split
  · exact ⟨failed.line, failed.calFault, failed.missing, failed.timing⟩
  · exact failed.trans (State.dropped_runsOn _ _ _ _)
  · exact failed.trans (State.dropped_runsOn _ _ _ _)
  · exact .refl s

theorem State.endCheck_runsOn (s : State) (k : Fin 4) (i : Index) (r : CheckResult) : s.RunsOn (s.endCheck k i r) := by
  have free : s.RunsOn (s.onSwitch fun w => { w with checkers := w.checkers.set k none }) := ⟨rfl, rfl, rfl, rfl⟩
  unfold State.endCheck
  cases r with
  | pass => exact ((free.trans (State.checkPass_runsOn _ i)).trans (State.filled_runsOn _ _)).trans (State.endIfSettled_runsOn _)
  | fail => exact ((free.trans (State.checkFail_runsOn _ i)).trans (State.filled_runsOn _ _)).trans (State.endIfSettled_runsOn _)

theorem State.readChecker_runsOn (s : State) (n b : Byte) (k : Fin 4) : s.RunsOn (s.readChecker n b k) := by
  unfold State.readChecker
  split
  · split
    · split
      · exact s.endCheck_runsOn k _ _
      · exact ⟨rfl, rfl, rfl, rfl⟩
    · exact .refl s
  · exact .refl s

theorem State.readSlot_runsOn (s : State) (n b : Byte) : s.RunsOn (s.readSlot n b) := by
  unfold State.readSlot
  generalize List.finRange 4 = l
  induction l generalizing s with
  | nil => exact .refl s
  | cons k l ih => exact (s.readChecker_runsOn n b k).trans (ih _)

/-- One highway slot passes, and the frame is one slot further on. -/
theorem State.passSlot_runsOn (s : State) (x : FrameTiming) (hx : s.switch.timing = some x) (hlt : x.slot < 256) :
    State.RunsOn { s with switch := { s.switch with timing := some { x with slot := x.slot + 1 } } } s.passSlot := by
  unfold State.passSlot
  rw [hx]
  dsimp only
  rw [if_pos (show x.slot < Config.frameSlots from hlt)]
  refine State.RunsOn.trans ?_ (State.readSlot_runsOn _ _ _)
  obtain ⟨inbound, hcopy, -⟩ := State.copySlot_eq (s.onSwitch _) _ _
  rw [hcopy]
  exact ⟨rfl, rfl, rfl, rfl⟩

/-! ### A highway slot keeps the Slot Switch sound -/

namespace SwitchKept

theorem settled {s : State} (h : SwitchKept s) : SwitchKept s.endIfSettled := by
  by_cases hs : s.settled
  · rw [s.endIfSettled_of_settled hs]; exact h.ended
  · rw [s.endIfSettled_of_not hs]; exact h

/-- PASS: the entry is connected and the checker taken over, an answer waiting or not (R127). -/
theorem checkPass {s : State} (h : SwitchKept s) (k : Fin 4) (c : Checker) (hc : s.switch.checkers[k] = some c) :
    SwitchKept ((State.checkPass { s with switch := { s.switch with checkers := s.switch.checkers.set k none } }
      c.index).onSwitch fun w => w.fill false) := by
  have he : State.entry { s with switch := { s.switch with checkers := s.switch.checkers.set k none } } c.index =
      s.entry c.index := rfl
  rw [State.checkPass_eq, he]
  split
  · next hs =>
    have hq : SwitchKept (s.queued ((s.entry c.index).answer .match_)) := h.of_same rfl rfl rfl
    exact hq.shift (.connected (s.queued _) k c hc (.inr (.inl hs)))
  · next hs => exact h.shift (.connected s k c hc (.inr (.inr hs)))
  · next hs => exact h.shift (.connected s k c hc (.inl hs))
  · next hc1 hc2 hc3 => exact h.shift (.freed s k c hc fun h => h.elim hc3 fun h => h.elim hc1 hc2)

/-- FAIL: the entry fails, with an answer or a DROP (R127). -/
theorem checkFail {s : State} (h : SwitchKept s) (k : Fin 4) (c : Checker) (hc : s.switch.checkers[k] = some c) :
    SwitchKept ((State.checkFail { s with switch := { s.switch with checkers := s.switch.checkers.set k none } }
      c.index).onSwitch fun w => w.fill false) := by
  have he : State.entry { s with switch := { s.switch with checkers := s.switch.checkers.set k none } } c.index =
      s.entry c.index := rfl
  have dropped : (s.entry c.index).state.standing = true →
      SwitchKept (((State.failedAs { s with switch := { s.switch with checkers := s.switch.checkers.set k none } } c.index
        .clash none).dropped (s.entry c.index).circuit (s.entry c.index).farSlot .clash).onSwitch fun w => w.fill false) := by
    intro hs
    rw [State.dropped_onSwitch, State.failedAs_ofChecker s k c hc, State.dropped_rest]
    exact (h.shift (.failed s c.index .clash none hs)).of_same rfl rfl rfl
  rw [State.checkFail_eq, he]
  split
  · next hs =>
    have hq : SwitchKept (s.queued ((s.entry c.index).answer .refuseClash)) := h.of_same rfl rfl rfl
    have hf := hq.shift (.failed (s.queued _) c.index .clash none
      (by show (s.entry c.index).state.standing = true; rw [hs]; rfl))
    rw [← State.failedAs_ofChecker (s.queued _) k c hc] at hf
    exact hf
  · next hs => exact dropped (by rw [hs]; rfl)
  · next hs => exact dropped (by rw [hs]; rfl)
  · next hc1 hc2 hc3 => exact h.shift (.freed s k c hc fun h => h.elim hc3 fun h => h.elim hc1 hc2)

theorem readChecker {s : State} (h : SwitchKept s) (hr : s.running = true) (n b : Byte) (k : Fin 4) :
    SwitchKept (s.readChecker n b k) := by
  unfold State.readChecker
  split
  · next c hc =>
    split
    · split
      · next r hres =>
        cases r with
        | pass => exact (h.checkPass k c hc).settled
        | fail => exact (h.checkFail k c hc).settled
      · next hres =>
        exact h.move (.readingCounted s k c hc (c.result_none b hres)) fun hf => absurd hr (by rw [hf]; nofun)
    · exact h
  · exact h

theorem readSlot {s : State} (h : SwitchKept s) (hr : s.running = true) (n b : Byte) : SwitchKept (s.readSlot n b) := by
  unfold State.readSlot
  generalize List.finRange 4 = l
  induction l generalizing s with
  | nil => exact h
  | cons k l ih => exact ih (h.readChecker hr n b k) ((s.readChecker_abides n b k).running.trans hr)

theorem passSlot {s : State} (h : SwitchKept s) (hr : s.running = true) : SwitchKept s.passSlot := by
  unfold State.passSlot
  split
  · exact h
  · next x hx =>
    split
    · next hlt =>
      dsimp only
      generalize ht : (s.onSwitch fun w =>
        { w.fillBefore x.frame (BitVec.ofNat 8 x.slot) with timing := some { x with slot := x.slot + 1 } }) = t
      generalize s.nextByte x.frame (BitVec.ofNat 8 x.slot) = b
      obtain ⟨inbound, hcopy, hin⟩ := t.copySlot_eq (BitVec.ofNat 8 x.slot) b
      have hrt : t.running = true := by rw [← ht]; exact hr
      refine readSlot ?_ (by rw [hcopy]; exact hrt) _ _
      rw [hcopy, ← ht]
      refine h.move (.slotRun s x _ inbound hx hlt fun c => ?_) fun hf => absurd hr (by rw [hf]; nofun)
      by_cases hc : t.copiesInto (BitVec.ofNat 8 x.slot) c (List.finRange 64)
      · obtain ⟨i, -, ⟨hd, -⟩, hch⟩ := hc
        exact .inr ⟨i, by have := t.drives_live i hd; rwa [← ht] at this, by rwa [← ht] at hch⟩
      · have := hin c
        rw [if_neg hc, ← ht] at this
        exact .inl this
    · exact h

end SwitchKept

end Sys2Proof.Machine

/-! A frame of a PRESENT highway, from a sync to the next (O33). -/

namespace Sys2Proof.Machine

/-! ### The highway slots still to pass -/

/-- A part whose highway slots pass by the rules (R119, R126). -/
structure State.Passing (s : State) : Prop where
  running : s.running = true
  present : s.switch.highway = .present
  table : TableSound s
  kept : SwitchKept s

theorem State.Passing.of_sound {s : State} (hr : s.running = true) (hp : s.switch.highway = .present) (ht : TableSound s)
    (hs : SwitchSound s) : s.Passing := ⟨hr, hp, ht, (switchSound_iff s).1 hs⟩

theorem State.Passing.sound {s : State} (h : s.Passing) : SwitchSound s := (switchSound_iff s).2 h.kept

theorem State.Passing.passSlot {s : State} (h : s.Passing) : s.passSlot.Passing where
  running := s.passSlot_abides.running.trans h.running
  present := s.passSlot_abides.highway.trans h.present
  table := h.table.effects s.passSlot_effects
  kept := h.kept.passSlot h.running

/-- What the highway slots of a frame leave as it is, whichever checks end in them. -/
structure State.FrameOf (s t : State) : Prop where
  line : t.line = s.line
  calFault : t.supply.calFault = s.supply.calFault
  missing : t.switch.missing = s.switch.missing

theorem State.FrameOf.refl (s : State) : s.FrameOf s := ⟨rfl, rfl, rfl⟩

theorem State.FrameOf.trans {s t u : State} (h : s.FrameOf t) (g : t.FrameOf u) : s.FrameOf u :=
  ⟨g.line.trans h.line, g.calFault.trans h.calFault, g.missing.trans h.missing⟩

theorem State.passSlot_frameOf (s : State) : s.FrameOf s.passSlot := by
  cases hx : s.switch.timing with
  | none =>
    unfold State.passSlot
    rw [hx]
    exact .refl s
  | some x =>
    by_cases hlt : x.slot < 256
    · have h := s.passSlot_runsOn x hx hlt
      exact ⟨h.line, h.calFault, h.missing⟩
    · unfold State.passSlot
      rw [hx]
      dsimp only
      rw [if_neg (show ¬ x.slot < Config.frameSlots from hlt)]
      exact .refl s

/-- So many highway slots pass, one after another. -/
theorem State.Passing.passSlots {s : State} (h : s.Passing) {x : FrameTiming} (hx : s.switch.timing = some x) {d : Nat}
    (hd : x.slot + d ≤ 256) : SlotsRun d s (State.passSlots d s) ∧ (State.passSlots d s).Passing ∧
      s.FrameOf (State.passSlots d s) ∧ (State.passSlots d s).switch.timing = some { x with slot := x.slot + d } := by
  obtain ⟨hrun, ⟨hp, hf⟩, ht⟩ := State.passSlots_run (fun u => u.Passing ∧ s.FrameOf u)
    (fun u hu => ⟨hu.1.passSlot, hu.2.trans u.passSlot_frameOf⟩)
    (fun u y hu hy hlt => ⟨u.passSlot_passes y.frame y.slot hu.1.running hu.1.present hy hlt hu.1.table hu.1.sound,
      (u.passSlot_runsOn y hy hlt).timing⟩) d s x ⟨h, .refl s⟩ hx hd
  exact ⟨hrun, hp, hf, ht⟩

/-- One slot more at the end. -/
theorem State.passSlots_succ (d : Nat) (s : State) : State.passSlots (d + 1) s = (State.passSlots d s).passSlot := by
  induction d generalizing s with
  | zero => rfl
  | succ d ih => exact ih s.passSlot

theorem State.passTo_of_timing (s : State) (n : Nat) {x : FrameTiming} (hx : s.switch.timing = some x) :
    s.passTo n = State.passSlots (n - x.slot) s := by
  unfold State.passTo
  rw [hx]

/-- A check that a later reading decides is one that the frame decides, since the slots before count no reading of it. -/
theorem SlotsPass.decides {s : State} {f : HighwayFrame} {k m : Nat} {w : SlotSwitch} (h : SlotsPass s f k m w)
    (hkm : k ≤ m) (hm : m < 256) {j : Fin 4} {y : Checker} (hy : w.checkers[j] = some y)
    (hd : State.decides { s with switch := w } f m (m + 1) y) :
    ∃ c, s.switch.checkers[j] = some c ∧ s.decides f k 256 c := by
  rw [h.readings j] at hy
  obtain ⟨c, hc, hcy⟩ := Option.map_eq_some_iff.1 hy
  dsimp only at hcy
  have hidx : y.index = c.index := by
    rw [← hcy]
    split <;> rfl
  obtain ⟨hmn, hnm, harmed, hends⟩ := hd
  have he : State.entry { s with switch := w } y.index = s.entry c.index := by rw [hidx]; rfl
  rw [he] at hmn hnm hends
  rw [h.heardAt hkm _ hmn] at hends
  have hyc : y = c := by
    rw [if_neg (by omega)] at hcy
    exact hcy.symm
  subst hyc
  exact ⟨y, hc, by omega, by omega, harmed, hends⟩

/-- Highway slots in which no check is decided leave copies, samples and readings, and nothing else (R119, R123, R126). -/
theorem State.Passing.passSlots_quiet {s : State} (h : s.Passing) {x : FrameTiming} (hx : s.switch.timing = some x)
    (hn : ∀ (k : Fin 4) c, s.switch.checkers[k] = some c → ¬ s.decides x.frame x.slot 256 c) {d : Nat}
    (hd : x.slot + d ≤ 256) :
    ∃ w, SlotsPass s x.frame x.slot (x.slot + d) w ∧ State.passSlots d s = { s with switch := w } := by
  induction d with
  | zero => exact ⟨s.switch, .refl s _ _ hx, rfl⟩
  | succ d ih =>
    obtain ⟨w, hw, he⟩ := ih (by omega)
    obtain ⟨-, hp, -, ht⟩ := h.passSlots hx (d := d) (by omega)
    obtain ⟨v, hv, hquiet, -⟩ := (State.passSlots d s).passSlot_passes x.frame (x.slot + d) hp.running hp.present ht
      (by omega) hp.table hp.sound
    rw [he] at hv hquiet
    refine ⟨v, hw.next h.table (Nat.le_add_right _ _) hv, ?_⟩
    rw [State.passSlots_succ, he]
    refine hquiet fun j y hy hdec => ?_
    obtain ⟨c, hc, hcd⟩ := hw.decides (Nat.le_add_right _ _) (by omega) hy hdec
    exact hn j c hc hcd

/-! ### Syncs while PRESENT (R118) -/

theorem exec_syncMissing_eq (s : State) (frame : HighwayFrame) (hr : s.running = true) (hp : s.switch.highway = .present) :
    exec (.syncMissing frame) s = .next (
      let t := s.passTo Config.frameSlots
      if t.switch.missing + 1 < Config.missingLimit then
        t.onSwitch fun w => { w.startFrame frame with missing := w.missing + 1 }
      else t.loseHighway) := by
  show execSyncMissing frame s = _
  unfold execSyncMissing
  exact congrArg _ (if_pos ⟨hr, hp⟩)

/-- Settles O33: the slots still to pass, one by one, and the frame that starts then. -/
theorem frameCopiesRxSlots : Obligations.FrameCopiesRxSlots := by
  unfold Obligations.FrameCopiesRxSlots
  intro s frame x hr hp ht hs hx hslot
  have h := State.Passing.of_sound hr hp ht hs
  obtain ⟨hrun, -, hframe, -⟩ := h.passSlots hx (d := 256 - x.slot) (by omega)
  have hto : s.passTo Config.frameSlots = State.passSlots (256 - x.slot) s := s.passTo_of_timing _ hx
  refine ⟨State.passSlots (256 - x.slot) s, hrun, fun hn => ?_, fun cycles hlo hhi => ?_, fun hmiss => ?_⟩
  · obtain ⟨w, hw, he⟩ := h.passSlots_quiet hx hn (d := 256 - x.slot) (by omega)
    rw [show x.slot + (256 - x.slot) = 256 by omega] at hw
    exact ⟨w, hw, he⟩
  · rw [exec_sync_of_present s cycles frame hr hp, State.syncPresent, if_pos ((onTime_iff cycles).2 ⟨hlo, hhi⟩), hto]
    rfl
  · rw [exec_syncMissing_eq s frame hr hp, hto]
    dsimp only
    rw [hframe.missing, if_pos (show s.switch.missing + 1 < Config.missingLimit from Nat.succ_lt_succ hmiss),
      ← hframe.missing]
    rfl

end Sys2Proof.Machine

/-! The third missing sync in a row, and the loss of the highway (O34). -/

namespace Sys2Proof.Machine

/-! ### The answers of the loss (R120) -/

/-- The answers queued for a list of entries, one after another. -/
def State.queuedAll (s : State) (verdict : Verdict) (l : List Index) : State :=
  l.foldl (fun t i => t.queued ((s.entry i).answer verdict)) s

theorem State.queuedAll_eq (s : State) (verdict : Verdict) (l : List Index) : s.queuedAll verdict l =
    { s with relink := { s.relink with
        answers := l.foldl (fun a i => queueAnswerItem a ((s.entry i).answer verdict)) s.relink.answers } } := by
  suffices h : ∀ t : State, l.foldl (fun t i => t.queued ((s.entry i).answer verdict)) t =
      { t with relink := { t.relink with
        answers := l.foldl (fun a i => queueAnswerItem a ((s.entry i).answer verdict)) t.relink.answers } } from h s
  induction l with
  | nil => exact fun t => rfl
  | cons i l ih => exact fun t => ih _

/-- With every CHECKING entry's check standing, each of them answers (R101, R120). -/
theorem State.unlitAnswers_eq (s : State) (h : ∀ i, (s.entry i).state = .checking → s.switch.checking i = true) :
    s.unlitAnswers = s.queuedAll .matchParked ((List.finRange 64).filter fun i => decide ((s.entry i).state = .checking)) := by
  refine s.eachEntry_filter (fun t => t.table = s.table) _ (State.answerUnlit s.switch)
    (fun i t => t.queued ((s.entry i).answer .matchParked)) rfl (fun i t _ he => ?_) (fun _ _ ht => ht) fun _ _ _ _ => rfl
  unfold State.answerUnlit
  rw [he]
  exact if_congr ⟨fun hc => decide_eq_true hc.2, fun hc => ⟨h i (of_decide_eq_true hc), of_decide_eq_true hc⟩⟩ rfl rfl

/-! ### The loss in one form (R81, R120) -/

/-- The part once the highway is lost, before the test of R81 and before the latch sees it. -/
def State.parkedAll (s : State) : State :=
  { s with
    table := Vector.ofFn fun i => (s.entry i).unlit s.switch i
    relink := { s.relink with answers := s.unlitAnswers.relink.answers }
    switch := s.switch.parked }

theorem State.parkedAll_entry (s : State) (i : Index) : s.parkedAll.entry i = (s.entry i).unlit s.switch i :=
  Vector.getElem_ofFn i.isLt

theorem State.loseHighway_parkedAll (s : State) : s.loseHighway = s.parkedAll.endIfSettled.latchChanges := by
  unfold State.loseHighway
  dsimp only
  rw [State.loseEntries_onSwitch, State.loseEntries_pass, s.unlitAnswers_rest]
  refine congrArg (fun t => State.latchChanges (State.endIfSettled t)) ?_
  unfold State.parkedAll State.onSwitch SlotSwitch.parked
  rfl

/-- The latch then shows the live values as they stood, and LOST (R178). -/
theorem State.parkedAll_live (s : State) : s.parkedAll.endIfSettled.live = { s.live with lost := true } := by
  have h := s.parkedAll.endIfSettled_runsOn
  have hw := s.parkedAll.endIfSettled_abides.highway
  unfold State.live
  rw [h.line, h.calFault, hw]
  rfl

theorem State.FrameOf.live {s t : State} (h : s.FrameOf t) (hw : t.switch.highway = s.switch.highway) : t.live = s.live := by
  unfold State.live
  rw [h.line, h.calFault, hw]

/-- A sound Slot Switch has a check standing for each entry in CHECKING or JOINING (R101, R111). -/
theorem State.Passing.checked {s : State} (h : s.Passing) {i : Index}
    (hi : (s.entry i).state = .checking ∨ (s.entry i).state = .joining) : s.switch.checking i = true := by
  rcases (h.kept.serves i).checked h.running (.inr hi) with hc | ⟨hp, -⟩
  · exact hc
  · rw [hp] at hi
    exact absurd hi (by decide)

theorem Entry.unlit_eq {s : State} (h : s.Passing) (i : Index) : (s.entry i).unlit s.switch i =
    if (s.entry i).state = .live ∨ (s.entry i).state = .checking ∨ (s.entry i).state = .joining then
      { s.entry i with state := .parked }
    else s.entry i :=
  if_congr (or_congr_right ⟨fun hc => hc.2, fun hc => ⟨h.checked hc, hc⟩⟩) rfl rfl

/-- Settles O34: the highway slots still to pass, then the loss. -/
theorem thirdMissingSyncParksEntries : Obligations.ThirdMissingSyncParksEntries := by
  unfold Obligations.ThirdMissingSyncParksEntries
  intro s frame x hr hp hmiss hs ht hx hslot
  have h := State.Passing.of_sound hr hp ht hs
  obtain ⟨hrun, hv, hframe, -⟩ := h.passSlots hx (d := 256 - x.slot) (by omega)
  have hto : s.passTo Config.frameSlots = State.passSlots (256 - x.slot) s := s.passTo_of_timing _ hx
  generalize hvs : State.passSlots (256 - x.slot) s = v at hrun hv hframe hto
  refine ⟨v, v.parkedAll.endIfSettled, v.parkedAll, hrun, ?_, State.endIfSettled_settles _, ?_, fun i => ?_⟩
  · rw [exec_syncMissing_eq s frame hr hp, hto]
    dsimp only
    rw [hframe.missing, hmiss, if_neg (by decide), State.loseHighway_parkedAll, State.latchChanges_eq, State.parkedAll_live,
      hframe.live (hv.present.trans hp.symm)]
  · dsimp only
    have ha := v.unlitAnswers_eq fun i hi => hv.checked (.inl hi)
    rw [State.queuedAll_eq] at ha
    unfold State.parkedAll
    rw [ha]
    rfl
  · rw [State.parkedAll_entry]
    exact Entry.unlit_eq hv i

end Sys2Proof.Machine

/-! The quiet check that a reading in the frame in progress ends (O35). -/

namespace Sys2Proof.Machine

/-! ### A check that stands while other highway slots pass -/

/-- The checker holds this check, and the check's entry is this one. -/
structure State.Checks (k : Fin 4) (c : Checker) (e : Entry) (s : State) : Prop where
  checker : s.switch.checkers[k] = some c
  entry : s.entry c.index = e

namespace State.Checks

theorem of_eq {k : Fin 4} {c : Checker} {e : Entry} {s t : State} (h : s.Checks k c e)
    (hw : t.switch.checkers = s.switch.checkers) (ht : t.table = s.table) : t.Checks k c e :=
  ⟨hw ▸ h.checker, (State.entry_of_table ht _).trans h.entry⟩

theorem filled {k : Fin 4} {c : Checker} {e : Entry} {s : State} (h : s.Checks k c e) (b : Bool) :
    (s.onSwitch fun w => w.fill b).Checks k c e := ⟨SlotSwitch.fill_some b _ k c h.checker, h.entry⟩

theorem settled {k : Fin 4} {c : Checker} {e : Entry} {s : State} (h : s.Checks k c e) : s.endIfSettled.Checks k c e := by
  by_cases hs : s.settled
  · rw [s.endIfSettled_of_settled hs]; exact h.of_eq rfl rfl
  · rw [s.endIfSettled_of_not hs]; exact h

theorem dropped {k : Fin 4} {c : Checker} {e : Entry} {s : State} (h : s.Checks k c e) (circuit : Circuit)
    (f : CardSlot) (r : DropReason) : (s.dropped circuit f r).Checks k c e := by
  rw [State.dropped_rest]
  exact h.of_eq rfl rfl

theorem connectedAs {k : Fin 4} {c : Checker} {e : Entry} {s : State} (h : s.Checks k c e) {i : Index} (hi : i ≠ c.index) :
    (s.connectedAs i).Checks k c e :=
  ⟨h.checker, ((entry_of_table_set s (s.connectedAs i) i c.index _ rfl).trans (if_neg hi)).trans h.entry⟩

theorem failedAs {k : Fin 4} {c : Checker} {e : Entry} {s : State} (h : s.Checks k c e) {i : Index} (hi : i ≠ c.index)
    (r : FailReason) (f : Option FarReason) : (s.failedAs i r f).Checks k c e := by
  refine ⟨?_, ((s.failedAs_entry i c.index r f).trans (if_neg hi)).trans h.entry⟩
  show (SlotSwitch.withdraw { s.switch with inbound := s.inboundWithout i } i).checkers[k] = some c
  refine SlotSwitch.fill_some false _ k c ?_
  rw [Fin.getElem_fin, Vector.getElem_map]
  exact (dropChecker_eq_some i _ c).2 ⟨h.checker, hi.symm⟩

theorem checkPass {k : Fin 4} {c : Checker} {e : Entry} {s : State} (h : s.Checks k c e) {i : Index} (hi : i ≠ c.index) :
    (s.checkPass i).Checks k c e := by
  rw [State.checkPass_eq]
  split
  · exact (h.connectedAs hi).of_eq rfl rfl
  · exact h.connectedAs hi
  · exact h.connectedAs hi
  · exact h

theorem checkFail {k : Fin 4} {c : Checker} {e : Entry} {s : State} (h : s.Checks k c e) {i : Index} (hi : i ≠ c.index) :
    (s.checkFail i).Checks k c e := by
  rw [State.checkFail_eq]
  split
  · exact (h.failedAs hi _ _).of_eq rfl rfl
  · exact (h.failedAs hi _ _).dropped _ _ _
  · exact (h.failedAs hi _ _).dropped _ _ _
  · exact h

/-- A check on another checker, of another entry, ends. -/
theorem endCheck {k j : Fin 4} {c : Checker} {e : Entry} {s : State} (h : s.Checks k c e) {i : Index} (hi : i ≠ c.index)
    (hj : j ≠ k) (r : CheckResult) : (s.endCheck j i r).Checks k c e := by
  have freed : (s.onSwitch fun w => { w with checkers := w.checkers.set j none }).Checks k c e :=
    ⟨((s.switch.checker_set j k none).trans (if_neg hj)).trans h.checker, h.entry⟩
  unfold State.endCheck
  cases r with
  | pass => exact ((freed.checkPass hi).filled false).settled
  | fail => exact ((freed.checkFail hi).filled false).settled

/-- A reading of a highway slot that is not the entry's tx slot. -/
theorem readChecker {k : Fin 4} {c : Checker} {e : Entry} {s : State} (h : s.Checks k c e) {n : Byte} (hn : e.txSlot ≠ n)
    (b : Byte) (j : Fin 4) : (s.readChecker n b j).Checks k c e := by
  unfold State.readChecker
  split
  · next d hd =>
    split
    · next hread =>
      have hne : d.index ≠ c.index := fun he => hn (by rw [← h.entry, ← he]; exact hread.2)
      have hjk : j ≠ k := fun he => hne (by rw [he, h.checker] at hd; cases hd; rfl)
      split
      · exact h.endCheck hne hjk _
      · exact ⟨((s.switch.checker_set j k _).trans (if_neg hjk)).trans h.checker, h.entry⟩
    · exact h
  · exact h

theorem readSlot {k : Fin 4} {c : Checker} {e : Entry} {s : State} (h : s.Checks k c e) {n : Byte} (hn : e.txSlot ≠ n)
    (b : Byte) : (s.readSlot n b).Checks k c e := by
  unfold State.readSlot
  generalize List.finRange 4 = l
  induction l generalizing s with
  | nil => exact h
  | cons j l ih => exact ih (h.readChecker hn b j)

theorem passSlot {k : Fin 4} {c : Checker} {e : Entry} {s : State} (h : s.Checks k c e) {x : FrameTiming}
    (hx : s.switch.timing = some x) (hlt : x.slot < e.txSlot.toNat) : s.passSlot.Checks k c e := by
  unfold State.passSlot
  rw [hx]
  dsimp only
  split
  · next h256 =>
    refine readSlot ?_ (fun he => ?_) _
    · obtain ⟨inbound, hcopy, -⟩ := State.copySlot_eq (s.onSwitch _) _ _
      rw [hcopy]
      exact h.of_eq rfl rfl
    · have : x.slot < 256 := h256
      rw [he, BitVec.toNat_ofNat] at hlt
      omega
  · exact h

end State.Checks

/-- The slots before the tx slot of a check's entry leave the check as it is. -/
theorem State.Passing.passSlots_checks {s : State} (h : s.Passing) {x : FrameTiming} (hx : s.switch.timing = some x)
    {k : Fin 4} {c : Checker} {e : Entry} (hc : s.Checks k c e) {d : Nat} (hd : x.slot + d ≤ e.txSlot.toNat) :
    (State.passSlots d s).Checks k c e := by
  induction d with
  | zero => exact hc
  | succ d ih =>
    have hlt := e.txSlot.isLt
    obtain ⟨-, -, -, ht⟩ := h.passSlots hx (d := d) (by omega)
    rw [State.passSlots_succ]
    refine (ih (by omega)).passSlot ht ?_
    show x.slot + d < _
    omega

/-- No LIVE entry drives the tx slot of an entry that waits for a check, so the checker reads what the others drive
(R5, R126). -/
theorem State.Passing.heardAt_checked {s : State} (h : s.Passing) {k : Fin 4} {c : Checker} {e : Entry}
    (hk : s.Checks k c e) (f : HighwayFrame) (m : Nat) :
    s.heardAt f m e.txSlot = (f.others[e.txSlot.toFin]).getD 0xFF := by
  have hwait : (s.entry c.index).state.awaitsCheck :=
    (h.kept.serves c.index).waiting ((s.switch.checking_iff _).2 (.inr ((s.switch.onChecker_iff _).2 ⟨k, c, hk.checker, rfl⟩)))
  have hfind : ((List.finRange 64).find? fun i =>
      (s.entry i).state == .live && (s.entry i).txSlot == e.txSlot) = none := by
    refine List.find?_eq_none.2 fun i _ hi => ?_
    rw [Bool.and_eq_true, beq_iff_eq, beq_iff_eq] at hi
    obtain ⟨hlive, htx⟩ := hi
    have hne : i ≠ c.index := fun he => by
      rw [he] at hlive
      rcases hwait with hw | hw | hw <;> (rw [hw] at hlive; cases hlive)
    have hstate : (s.entry c.index).state ≠ .empty := by
      rcases hwait with hw | hw | hw <;> (rw [hw]; nofun)
    exact (h.table.unique i c.index (by rw [hlive]; nofun) hstate hne).2.1 (htx.trans (congrArg Entry.txSlot hk.entry).symm)
  unfold State.heardAt
  rw [hfind]
  cases f.others[e.txSlot.toFin] <;> rfl

/-! ### QUIET_CHECK_RESULT (R127) -/

theorem Checker.result_isSome (c : Checker) (b : Byte) : (c.result b).isSome = true ↔ b ≠ 0xFF ∨ 3 ≤ c.samples := by
  rw [Checker.result_eq]
  split
  · next h => exact ⟨fun _ => h, fun _ => rfl⟩
  · next h => exact ⟨nofun, fun hc => absurd hc h⟩

/-- The part does or does not stand where the check's reading falls, and the reading does or does not end the check. -/
theorem exec_quietCheckResult_of_checker (s : State) (k : Fin 4) (c : Checker) (x : FrameTiming) (reading : Byte)
    (h : s.Passing) (hc : s.switch.checkers[k] = some c) (hx : s.switch.timing = some x) :
    exec (.quietCheckResult k reading) s = .next (
      let n := (s.entry c.index).txSlot
      if c.armed = true ∧ x.slot ≤ n.toNat ∧ (x.frame.others[n.toFin]).getD 0xFF = reading ∧
        (reading ≠ 0xFF ∨ 3 ≤ c.samples) then (State.passSlots (n.toNat - x.slot) s).passSlot
      else s) := by
  show execQuietCheckResult k reading s = _
  unfold execQuietCheckResult
  rw [h.running, h.present, hc, hx]
  dsimp only
  rw [s.passTo_of_timing _ hx]
  refine congrArg Host.Outcome.next (if_congr (and_congr_right fun _ => and_congr_right fun hslot =>
    and_congr ?_ (c.result_isSome reading)) rfl rfl)
  have hlt := (s.entry c.index).txSlot.isLt
  obtain ⟨-, hv, -, -⟩ := h.passSlots hx (d := (s.entry c.index).txSlot.toNat - x.slot) (by omega)
  have hk := h.passSlots_checks hx (k := k) ⟨hc, rfl⟩ (d := (s.entry c.index).txSlot.toNat - x.slot) (by omega)
  have hheard := hv.heardAt_checked hk x.frame (s.entry c.index).txSlot.toNat
  rw [State.nextByte_eq _ _ _ hv.running hv.present, hheard]

theorem exec_quietCheckResult_of_none (s : State) (k : Fin 4) (reading : Byte)
    (h : s.running = false ∨ s.switch.highway = .lost ∨ s.switch.checkers[k] = none ∨ s.switch.timing = none) :
    exec (.quietCheckResult k reading) s = .next s := by
  show execQuietCheckResult k reading s = _
  unfold execQuietCheckResult
  split
  · next hr hp hc hx =>
    rcases h with h | h | h | h
    · rw [hr] at h; cases h
    · rw [hp] at h; cases h
    · rw [hc] at h; cases h
    · rw [hx] at h; cases h
  · rfl

/-- Settles O35: the slots up to the reading, the check that it ends, and the heads that idle checkers take. -/
theorem quietCheckDecides : Obligations.QuietCheckDecides := by
  unfold Obligations.QuietCheckDecides
  refine ⟨fun s k c x reading hr hp ht hs hc hx hslot => ?_, exec_quietCheckResult_of_none, SlotSwitch.fill_eq_filled⟩
  have h := State.Passing.of_sound hr hp ht hs
  have hexec := exec_quietCheckResult_of_checker s k c x reading h hc hx
  dsimp only at hexec ⊢
  refine ⟨fun hno => hexec.trans (congrArg _ (if_neg hno)), fun hreads => ?_⟩
  obtain ⟨harmed, hle, hreading, hends⟩ := hreads
  have hlt := (s.entry c.index).txSlot.isLt
  obtain ⟨hrun, hv, -, hvx⟩ := h.passSlots hx (d := (s.entry c.index).txSlot.toNat - x.slot) (by omega)
  have hk := h.passSlots_checks hx (k := k) ⟨hc, rfl⟩ (d := (s.entry c.index).txSlot.toNat - x.slot) (by omega)
  rw [show x.slot + ((s.entry c.index).txSlot.toNat - x.slot) = (s.entry c.index).txSlot.toNat by omega] at hvx
  generalize hvs : State.passSlots ((s.entry c.index).txSlot.toNat - x.slot) s = v at hrun hv hvx hk hexec
  have hheard := hv.heardAt_checked hk x.frame (s.entry c.index).txSlot.toNat
  rw [hreading] at hheard
  obtain ⟨w, hw, -, hdec⟩ := v.passSlot_passes x.frame _ hv.running hv.present hvx (by omega) hv.table hv.sound
  refine ⟨v, v.passSlot, w, hrun, hexec.trans (congrArg _ (if_pos ⟨harmed, hle, hreading, hends⟩)), hk.checker,
    congrArg Entry.state hk.entry, hw, ?_⟩
  have hend := hdec k c hk.checker (by
    unfold State.decides
    dsimp only
    rw [hk.entry, hheard]
    exact ⟨le_rfl, Nat.lt_succ_self _, harmed, hends⟩)
  rw [hk.entry, hheard] at hend
  exact hend

end Sys2Proof.Machine

/-! The port commands taken and refused, the codes that name them, START, the latch and the mask (O36, O37, O40, O45). -/

namespace Sys2Proof.Machine

/-! ### What each port command does where it is taken (R167) -/

/-- The effect of a command of Table 10-3 in RUN with CRST high. -/
def commandEffect : Instr → Option (State → State)
  | .setTiming => some State.setTimingCmd
  | .setClassLimit => some State.setClassLimitCmd
  | .setPacking => some State.setPackingCmd
  | .start => some State.startCmd
  | .writeEntry => some State.write
  | .clearEntry => some State.clear
  | .readEntry => some State.read
  | .submitUnit => some State.submit
  | .clearCondition => some State.clearGap
  | .resetLatch => some State.resetLatchCmd
  | .setAttention => some State.setAttentionCmd
  | .readRoster => some State.readRosterCmd
  | .readCampaign => some State.readCampaignCmd
  | .readFigures => some State.readFiguresCmd
  | _ => none

theorem exec_of_effect {c : Instr} {f : State → State} (h : commandEffect c = some f) (s : State) :
    exec c s = .next (if s.takesCommands then f s else s) := by
  unfold commandEffect at h
  split at h
  all_goals cases h <;> rfl

theorem exec_of_taken {c : Instr} {f : State → State} (h : commandEffect c = some f) {s : State}
    (ht : s.takesCommands = true) : exec c s = .next (f s) := by
  rw [exec_of_effect h, if_pos ht]

theorem State.takesCommands_eq_false {s : State} (h : s.running = false ∨ s.port.crstLow = true) : s.takesCommands = false := by
  unfold State.takesCommands
  rcases h with h | h <;> simp [h]

theorem exec_of_untaken {c : Instr} {f : State → State} (h : commandEffect c = some f) {s : State}
    (ht : s.takesCommands = false) : exec c s = .next s := by
  rw [exec_of_effect h, if_neg (by rw [ht]; nofun)]

theorem exec_unknownCommand_of_untaken (code : Byte) {s : State} (ht : s.takesCommands = false) :
    exec (.unknownCommand code) s = .next s := by
  show execUnknownCommand code s = _
  exact congrArg Host.Outcome.next (if_neg (by rw [ht]; exact fun h => Bool.false_ne_true h.1))

theorem exec_paramWrite_of_untaken (value : Byte) {s : State} (ht : s.takesCommands = false) :
    exec (.paramWrite value) s = .next s := by
  show execParamWrite value s = _
  exact congrArg Host.Outcome.next (if_neg (by rw [ht]; nofun))

theorem exec_unknownCommand_of_taken {code : Byte} (hc : code ∉ Config.commandCodes) {s : State}
    (ht : s.takesCommands = true) : exec (.unknownCommand code) s = .next (s.answering [0x04, 0xFF]) := by
  show execUnknownCommand code s = _
  exact congrArg Host.Outcome.next (if_pos ⟨ht, by simpa using hc⟩)

/-! ### The codes that name the commands (Table 10-3) -/

/-- The codes and the commands that they name (Table 10-3). -/
def portCodes : List (Byte × Instr) :=
  [(0x10, .setTiming), (0x11, .setClassLimit), (0x12, .setPacking), (0x1F, .start), (0x20, .writeEntry),
    (0x21, .clearEntry), (0x22, .readEntry), (0x30, .submitUnit), (0x31, .clearCondition), (0x40, .resetLatch),
    (0x41, .setAttention), (0x42, .readRoster), (0x43, .readCampaign), (0x44, .readFigures)]

theorem commandOf_of_not_mem {code : Byte} (h : code ∉ Config.commandCodes) : commandOf code = .unknownCommand code := by
  have hne : ∀ n : Nat, code.toNat = n → BitVec.ofNat 8 n ∉ Config.commandCodes := by
    rintro n rfl
    simpa using h
  unfold commandOf
  split
  case h_15 => rfl
  all_goals next he => exact absurd (by decide) (hne _ he)

theorem commandOf_of_mem {code : Byte} (h : code ∈ Config.commandCodes) : ∃ f, commandEffect (commandOf code) = some f := by
  unfold Config.commandCodes at h
  simp only [List.mem_cons, List.not_mem_nil, or_false] at h
  rcases h with rfl | rfl | rfl | rfl | rfl | rfl | rfl | rfl | rfl | rfl | rfl | rfl | rfl | rfl
  all_goals exact ⟨_, rfl⟩

theorem Instr.wf_of_effect {c : Instr} {f : State → State} (h : commandEffect c = some f) : c.wf = true := by
  unfold commandEffect at h
  split at h
  all_goals cases h <;> rfl

theorem commandOf_wf (code : Byte) : (commandOf code).wf = true := by
  by_cases h : code ∈ Config.commandCodes
  · obtain ⟨f, hf⟩ := commandOf_of_mem h
    exact Instr.wf_of_effect hf
  · rw [commandOf_of_not_mem h]
    simpa [Instr.wf] using h

theorem exec_commandOf_of_untaken (code : Byte) {s : State} (ht : s.takesCommands = false) :
    exec (commandOf code) s = .next s := by
  by_cases h : code ∈ Config.commandCodes
  · obtain ⟨f, hf⟩ := commandOf_of_mem h
    exact exec_of_untaken hf ht
  · rw [commandOf_of_not_mem h]
    exact exec_unknownCommand_of_untaken code ht

theorem writeAccess_of_le {location : BitVec 3} (h : 2 ≤ location.toNat) (value : Byte) :
    writeAccess location value = .ignoredWrite location value := by
  unfold writeAccess
  split
  · next h0 => omega
  · next h1 => omega
  · rfl

/-- A write is to COMMAND, to PARAM, or to a location without a meaning (Table 10-1). -/
theorem writeAccess_cases (location : BitVec 3) (value : Byte) :
    writeAccess location value = commandOf value ∨ writeAccess location value = .paramWrite value ∨
      (2 ≤ location.toNat ∧ writeAccess location value = .ignoredWrite location value) := by
  by_cases h : 2 ≤ location.toNat
  · exact .inr (.inr ⟨h, writeAccess_of_le h value⟩)
  · unfold writeAccess
    split
    · exact .inl rfl
    · exact .inr (.inl rfl)
    · next h0 h1 =>
      have hlow : location.toNat = 0 ∨ location.toNat = 1 := by omega
      exact (hlow.elim h0 h1).elim

/-- Settles O37: the codes one by one, and every other location and byte. -/
theorem writesNameTheirCommands : Obligations.WritesNameTheirCommands := by
  unfold Obligations.WritesNameTheirCommands
  refine ⟨⟨rfl, fun code => ⟨fun c hc => ?_, fun hc => ?_⟩⟩, fun _ => rfl, fun location value h => writeAccess_of_le h value,
    fun location value => ?_, fun s location value h => ?_⟩
  · simp only [List.mem_cons, List.not_mem_nil, or_false, Prod.mk.injEq] at hc
    rcases hc with h | h | h | h | h | h | h | h | h | h | h | h | h | h
    all_goals obtain ⟨rfl, rfl⟩ := h; rfl
  · refine commandOf_of_not_mem fun hm => ?_
    obtain ⟨⟨_, c⟩, hmem, rfl⟩ := List.mem_map.1 (show code ∈ portCodes.map Prod.fst from hm)
    exact hc c hmem
  · rcases writeAccess_cases location value with h | h | ⟨h2, h⟩
    · rw [h]; exact commandOf_wf value
    · rw [h]; rfl
    · rw [h]
      simpa [Instr.wf, ignoredWf] using h2
  · have ht := State.takesCommands_eq_false h
    rcases writeAccess_cases location value with h | h | ⟨-, h⟩
    · rw [h]; exact exec_commandOf_of_untaken value ht
    · rw [h]; exact exec_paramWrite_of_untaken value ht
    · rw [h]; rfl

/-! ### Refusals by mode and parameter count (R167) -/

/-- The commands of CONFIG mode with their parameter counts (Table 10-3). -/
def configCommands : List (Instr × List Nat) :=
  [(.setTiming, [7]), (.setClassLimit, [4]), (.setPacking, [1]), (.start, [0])]

/-- The commands of ACTIVE mode with their parameter counts (Table 10-3). -/
def activeCommands : List (Instr × List Nat) :=
  [(.writeEntry, [12]), (.clearEntry, [1]), (.readEntry, [1]), (.submitUnit, [2, 3, 4, 5, 6, 7, 8, 9]),
    (.clearCondition, [0])]

/-- The commands of both modes with their parameter counts (Table 10-3). -/
def commonCommands : List (Instr × List Nat) :=
  [(.resetLatch, [0]), (.setAttention, [1]), (.readRoster, [0, 1]), (.readCampaign, [0]), (.readFigures, [0])]

theorem commandEffect_of_mem {c : Instr} (h : c ∈ (configCommands ++ activeCommands ++ commonCommands).map Prod.fst) :
    ∃ f, commandEffect c = some f := by
  have hall : ∀ d ∈ (configCommands ++ activeCommands ++ commonCommands).map Prod.fst, (commandEffect d).isSome = true := by
    simp only [configCommands, activeCommands, commonCommands, List.cons_append, List.nil_append, List.map_cons, List.map_nil,
      List.forall_mem_cons, commandEffect, Option.isSome_some, List.not_mem_nil, false_imp_iff, implies_true, and_self]
  exact Option.isSome_iff_exists.1 (hall c h)

theorem ne_of_not_mem_singleton {m n : Nat} (h : m ∉ [n]) : m ≠ n := fun he => h (List.mem_singleton.2 he)

/-- The overlength mark counts as 13, which no command asks for. -/
theorem CardPort.paramCount_not_mem {p : CardPort} {counts : List Nat} (hn : ∀ n ∈ counts, n ≤ 12)
    (h : p.params.length ∉ counts ∨ p.overlength = true) : p.paramCount ∉ counts := by
  unfold CardPort.paramCount
  split
  · intro hm
    have h13 : Config.paramPlaces + 1 = 13 := rfl
    have := hn _ hm
    omega
  · next hlong => exact h.resolve_right hlong

section
variable {c : Instr} {s : State} {f : State → State}

theorem config_wrongMode (hc : c ∈ configCommands.map Prod.fst) (hf : commandEffect c = some f) (ha : s.active = true) :
    f s = s.answering [0x03] := by
  simp only [configCommands, List.map_cons, List.map_nil, List.mem_cons, List.not_mem_nil, or_false] at hc
  rcases hc with rfl | rfl | rfl | rfl
  all_goals cases hf; exact if_pos ha

theorem active_wrongMode (hc : c ∈ activeCommands.map Prod.fst) (hf : commandEffect c = some f) (ha : s.active = false) :
    f s = s.answering [0x03] := by
  simp only [activeCommands, List.map_cons, List.map_nil, List.mem_cons, List.not_mem_nil, or_false] at hc
  rcases hc with rfl | rfl | rfl | rfl | rfl
  all_goals cases hf; exact if_pos ha

variable {counts : List Nat}

theorem config_badCount (hc : (c, counts) ∈ configCommands) (hf : commandEffect c = some f) (ha : s.active = false)
    (hn : s.port.paramCount ∉ counts) : f s = s.answering [0x04, 0x00] := by
  have hm : ¬ s.active = true := by rw [ha]; nofun
  simp only [configCommands, List.mem_cons, List.not_mem_nil, or_false, Prod.mk.injEq] at hc
  rcases hc with h | h | h | h
  all_goals
    obtain ⟨rfl, rfl⟩ := h
    cases hf
    exact (if_neg hm).trans (if_pos (ne_of_not_mem_singleton hn))

theorem active_badCount (hc : (c, counts) ∈ activeCommands) (hf : commandEffect c = some f) (ha : s.active = true)
    (hn : s.port.paramCount ∉ counts) : f s = s.answering [0x04, 0x00] := by
  have hm : ¬ s.active = false := by rw [ha]; nofun
  simp only [activeCommands, List.mem_cons, List.not_mem_nil, or_false, Prod.mk.injEq] at hc
  rcases hc with h | h | h | h | h
  case inr.inr.inr.inl =>
    obtain ⟨rfl, rfl⟩ := h
    cases hf
    simp only [List.mem_cons, List.not_mem_nil, or_false, not_or] at hn
    exact (if_neg hm).trans (if_pos (by omega))
  all_goals
    obtain ⟨rfl, rfl⟩ := h
    cases hf
    exact (if_neg hm).trans (if_pos (ne_of_not_mem_singleton hn))

theorem common_badCount (hc : (c, counts) ∈ commonCommands) (hf : commandEffect c = some f)
    (hn : s.port.paramCount ∉ counts) : f s = s.answering [0x04, 0x00] := by
  simp only [commonCommands, List.mem_cons, List.not_mem_nil, or_false, Prod.mk.injEq] at hc
  rcases hc with h | h | h | h | h
  case inr.inr.inl =>
    obtain ⟨rfl, rfl⟩ := h
    cases hf
    simp only [List.mem_cons, List.not_mem_nil, or_false, not_or] at hn
    exact (if_neg hn.1).trans (if_pos hn.2)
  all_goals
    obtain ⟨rfl, rfl⟩ := h
    cases hf
    exact if_pos (ne_of_not_mem_singleton hn)

end

theorem counts_le {c : Instr} {counts : List Nat} (h : (c, counts) ∈ configCommands ++ activeCommands ++ commonCommands) :
    ∀ n ∈ counts, n ≤ 12 := by
  have hall : ∀ p ∈ configCommands ++ activeCommands ++ commonCommands, ∀ n ∈ p.2, n ≤ 12 := by
    simp only [configCommands, activeCommands, commonCommands, List.cons_append, List.nil_append, List.forall_mem_cons,
      List.not_mem_nil, false_imp_iff, implies_true, and_true]
    decide
  exact hall _ h

/-- Settles O36: each command's refusals in their order, by the three lists of Table 10-3. -/
theorem commandsAreRefusedByModeAndCount : Obligations.CommandsAreRefusedByModeAndCount := by
  unfold Obligations.CommandsAreRefusedByModeAndCount
  intro s c
  show (s.running = false ∨ s.port.crstLow = true →
      (c ∈ (configCommands ++ activeCommands ++ commonCommands).map Prod.fst ∨ _) → _) ∧
    (_ → _ → (c ∈ configCommands.map Prod.fst → _) ∧ (c ∈ activeCommands.map Prod.fst → _) ∧
      (∀ counts, ((c, counts) ∈ configCommands ∧ _) ∨ ((c, counts) ∈ activeCommands ∧ _) ∨ (c, counts) ∈ commonCommands → _) ∧ _)
  refine ⟨fun hs hc => ?_, fun hr hcrst => ?_⟩
  · have ht := State.takesCommands_eq_false hs
    rcases hc with hc | ⟨code, rfl, -⟩ | ⟨v, rfl⟩
    · obtain ⟨f, hf⟩ := commandEffect_of_mem hc
      exact exec_of_untaken hf ht
    · exact exec_unknownCommand_of_untaken code ht
    · exact exec_paramWrite_of_untaken v ht
  · have ht := State.takesCommands_of_running hr hcrst
    have effect : c ∈ (configCommands ++ activeCommands ++ commonCommands).map Prod.fst →
        ∃ f, commandEffect c = some f ∧ exec c s = .next (f s) := fun hc => by
      obtain ⟨f, hf⟩ := commandEffect_of_mem hc
      exact ⟨f, hf, exec_of_taken hf ht⟩
    simp only [List.map_append, List.mem_append] at effect
    refine ⟨fun hc ha => ?_, fun hc ha => ?_, fun counts hc hn => ?_, ?_⟩
    · obtain ⟨f, hf, he⟩ := effect (.inl (.inl hc))
      rw [he, config_wrongMode hc hf ha]
    · obtain ⟨f, hf, he⟩ := effect (.inl (.inr hc))
      rw [he, active_wrongMode hc hf ha]
    · have count : (c, counts) ∈ configCommands ++ activeCommands ++ commonCommands → s.port.paramCount ∉ counts :=
        fun hm => CardPort.paramCount_not_mem (counts_le hm) hn
      simp only [List.mem_append] at count
      rcases hc with ⟨hc, ha⟩ | ⟨hc, ha⟩ | hc
      · obtain ⟨f, hf, he⟩ := effect (.inl (.inl (List.mem_map_of_mem hc)))
        rw [he, config_badCount hc hf ha (count (.inl (.inl hc)))]
      · obtain ⟨f, hf, he⟩ := effect (.inl (.inr (List.mem_map_of_mem hc)))
        rw [he, active_badCount hc hf ha (count (.inl (.inr hc)))]
      · obtain ⟨f, hf, he⟩ := effect (.inr (List.mem_map_of_mem hc))
        rw [he, common_badCount hc hf (count (.inr hc))]
    · rintro ⟨code, rfl, hcode⟩
      exact exec_unknownCommand_of_taken hcode ht

/-! ### START, RESET LATCH and SET ATTENTION -/

theorem State.given.exec {s : State} {ps : List Byte} (h : s.given ps) {c : Instr} {f : State → State}
    (hf : commandEffect c = some f) : Sys2Proof.Machine.exec c s = .next (f s) := exec_of_taken hf h.takesCommands

/-- Settles O40: START in one form. -/
theorem startBeginsCampaign : Obligations.StartBeginsCampaign := by
  unfold Obligations.StartBeginsCampaign
  intro s hgiven hmode
  rw [hgiven.exec (c := .start) rfl, s.startCmd_eq hmode hgiven.paramCount_eq]
  rfl

theorem State.setAttentionCmd_of_given {s : State} {x : Byte} (h : s.given [x]) : s.setAttentionCmd =
    if 7 < x.toNat then s.answering [0x04, 0x01]
    else { s with port := { s.port with mask := x.setWidth 3 }.answered [0x01, x] } := by
  unfold State.setAttentionCmd
  rw [if_neg (by rw [h.paramCount_eq]; exact fun hn => hn rfl), h.params_eq]
  rfl

/-- The latch byte as a number (Table 10-8). -/
theorem latchFlags_eq : ∀ pending clash fault lost stuck : Bool,
    flagBit pending 7 ||| flagBit clash 3 ||| flagBit fault 2 ||| flagBit lost 1 ||| flagBit stuck 0 =
      BitVec.ofNat 8 ((if pending then 128 else 0) + (if clash then 8 else 0) + (if fault then 4 else 0)
        + (if lost then 2 else 0) + if stuck then 1 else 0) := by decide

theorem State.resetLatchCmd_of_given {s : State} (h : s.given []) : s.resetLatchCmd = { s with
    port := { s.port with latch := s.live, latchPending := decide (s.port.latch ≠ s.live) }.answered
      [0x01, BitVec.ofNat 8 ((if decide (s.port.latch ≠ s.live) = true then 128 else 0) + (if s.live.clash then 8 else 0)
        + (if s.live.calFault then 4 else 0) + (if s.live.lost then 2 else 0) + if s.live.stuck then 1 else 0)] } := by
  unfold State.resetLatchCmd
  rw [if_neg (by rw [h.paramCount_eq]; exact fun hn => hn rfl), State.rearm_eq, ← latchFlags_eq]
  rfl

/-- Settles O45: the latch shows the live items, and the mask what it is given. -/
theorem latchAndMaskCommands : Obligations.LatchAndMaskCommands := by
  unfold Obligations.LatchAndMaskCommands
  refine ⟨fun s => ?_, fun s h => ?_, fun s x h => ⟨fun hx => ?_, fun hx => ?_⟩⟩
  · unfold State.live
    cases s.switch.highway <;> rfl
  · exact (h.exec (c := .resetLatch) rfl).trans (congrArg _ (State.resetLatchCmd_of_given h))
  · rw [h.exec (c := .setAttention) rfl, State.setAttentionCmd_of_given h, if_pos hx]
  · rw [h.exec (c := .setAttention) rfl, State.setAttentionCmd_of_given h, if_neg (Nat.not_lt.2 hx)]

end Sys2Proof.Machine

/-! CLEAR ENTRY and SUBMIT UNIT (O42, O43). -/

namespace Sys2Proof.Machine

/-! ### The index that a parameter byte names -/

theorem indexOf_of_val {x : Byte} {i : Index} (h : i.val = x.toNat) : indexOf x = some i := by
  unfold indexOf
  rw [dif_pos (by rw [← h]; exact i.isLt)]
  exact congrArg some (Fin.ext h.symm)

theorem indexOf_of_lt {x : Byte} (h : 63 < x.toNat) : indexOf x = none := by
  unfold indexOf
  exact dif_neg (by omega)

/-! ### CLEAR ENTRY (R11, R12) -/

theorem exec_clearEntry_of_given {s : State} {x : Byte} (h : s.given [x]) (ha : s.active = true) :
    exec .clearEntry s = .next ((indexOf x).elim (s.leaveResult [rBadParameter, 1]) s.clearAt) := by
  rw [h.exec (c := .clearEntry) rfl]
  unfold State.clear
  rw [if_neg (by rw [ha]; nofun), if_neg (by rw [h.paramCount_eq]; exact fun hn => hn rfl), h.params_eq, paramByte_one]
  cases indexOf x <;> rfl

theorem exec_clearEntry_of_index {s : State} {x : Byte} (h : s.given [x]) (ha : s.active = true) {i : Index}
    (hi : i.val = x.toNat) : exec .clearEntry s = .next (s.clearAt i) := by
  rw [exec_clearEntry_of_given h ha, indexOf_of_val hi, Option.elim_some]

theorem State.clearAt_empty (s : State) (i : Index) (hs : (s.entry i).state = .empty) : s.clearAt i = s.answering [0x06] := by
  unfold State.clearAt
  rw [hs]
  rfl

/-- What a DROP added leaves as it stood. -/
theorem State.dropped_takenOut (s : State) (circuit : Circuit) (f : CardSlot) (r : DropReason) (i : Index) :
    (s.dropped circuit f r).takenOut i = { s.dropped circuit f r with
      table := s.table.set i Entry.cleared
      line := s.lineWithout i
      relink := { (s.dropped circuit f r).relink with
        answerTimer := s.timerWithout i
        answers := s.relink.answers.filter fun a =>
          !(a.circuit == (s.entry i).circuit && a.origin == (s.entry i).farSlot && a.verdict != .refuseUnknown) }
      switch := s.switchWithout i
      units := s.units.filter fun u => u.entry != i
      port := (s.dropped circuit f r).port.posted (s.discardNotices i) } := by
  rw [s.dropped_rest circuit f r]
  rfl

/-- A check withdrawn, with the checkers written out one by one (R128). -/
theorem SlotSwitch.withdraw_eq (w : SlotSwitch) (i : Index) : w.withdraw i = SlotSwitch.fill false { w with
    checkQueue := w.checkQueue.filter fun j => decide (j ≠ i)
    checkers := Vector.ofFn fun k =>
      match w.checkers[k] with
      | some c => if c.index = i then none else some c
      | none => none } := by
  have hq : (w.checkQueue.filter fun j => j != i) = w.checkQueue.filter fun j => decide (j ≠ i) :=
    List.filter_congr fun j _ => by by_cases hj : j = i <;> simp [hj]
  have hc : w.checkers.map (dropChecker i) = Vector.ofFn fun k : Fin 4 =>
      match w.checkers[k] with
      | some c => if c.index = i then none else some c
      | none => none := Vector.ext fun k hk => by
    rw [Vector.getElem_map, Vector.getElem_ofFn]
    unfold dropChecker
    show (match w.checkers[k] with
      | some c => if c.index = i then none else w.checkers[k]
      | none => none) = match w.checkers[k] with
      | some c => if c.index = i then none else some c
      | none => none
    cases w.checkers[k] <;> rfl
  unfold SlotSwitch.withdraw
  rw [hq, hc]

/-- Settles O42: CLEAR ENTRY by the state of its entry, and the parts it is made of. -/
theorem clearEntryLeavesNothing : Obligations.ClearEntryLeavesNothing := by
  unfold Obligations.ClearEntryLeavesNothing
  refine ⟨fun s x h ha => ⟨fun hx => ?_, fun i hi => ⟨fun hs => ?_, fun hs => ?_, fun hs => ?_⟩⟩, rfl,
    EntryState.standing_iff, fun w i => ?_, SlotSwitch.withdraw_eq⟩
  · rw [exec_clearEntry_of_given h ha, indexOf_of_lt hx]
    rfl
  · rw [exec_clearEntry_of_index h ha hi, s.clearAt_empty i hs]
  · rw [exec_clearEntry_of_index h ha hi, s.clearAt_failed i hs]
    rfl
  · dsimp only
    refine ⟨_, (exec_clearEntry_of_index h ha hi).trans (congrArg _ ((s.clearAt_standing i hs).trans (s.clearStanding_eq i))),
      ?_⟩
    rw [← State.dropped_takenOut]
    exact State.endIfSettled_settles _
  · rw [w.checking_iff, w.onChecker_iff]

/-! ### SUBMIT UNIT (R134 to R136) -/

theorem exec_submitUnit_of_given {s : State} {x : Byte} {content : List Byte} (h : s.given (x :: content))
    (ha : s.active = true) (hlo : 1 ≤ content.length) (hhi : content.length ≤ 8) :
    exec .submitUnit s = .next ((indexOf x).elim (s.leaveResult [rBadParameter, 1]) fun i => s.submitTo i content) := by
  have hn : ¬ (s.port.paramCount < 2 ∨ 9 < s.port.paramCount) := by
    rw [h.paramCount_eq, List.length_cons]
    omega
  rw [h.exec (c := .submitUnit) rfl]
  unfold State.submit
  rw [if_neg (by rw [ha]; nofun), if_neg hn, h.params_eq, paramByte_one]
  cases indexOf x <;> rfl

theorem State.submitTo_empty (s : State) (i : Index) (content : List Byte) (hs : (s.entry i).state = .empty) :
    s.submitTo i content = s.answering [0x06, 0x00, 0x00] := by
  unfold State.submitTo
  rw [hs]
  rfl

theorem State.submitTo_failed (s : State) (i : Index) (content : List Byte) (hs : (s.entry i).state = .failed) :
    s.submitTo i content = s.answering (rNoEntry :: failureBytes (s.entry i).failure) := by
  unfold State.submitTo
  rw [hs]
  rfl

/-- Settles O43: SUBMIT UNIT by the state of its entry and the room in the queue. -/
theorem submitUnitStampsSequence : Obligations.SubmitUnitStampsSequence := by
  unfold Obligations.SubmitUnitStampsSequence
  refine ⟨fun s x content h ha hlo hhi => ⟨fun hx => ?_, fun i hi => ?_⟩, rfl, rfl⟩
  · rw [exec_submitUnit_of_given h ha hlo hhi, indexOf_of_lt hx]
    rfl
  · have he : exec .submitUnit s = .next (s.submitTo i content) := by
      rw [exec_submitUnit_of_given h ha hlo hhi, indexOf_of_val hi, Option.elim_some]
    refine ⟨fun hs => ?_, fun reason far hs hf => ?_, fun hs hfull => ?_, fun hs hroom => ?_⟩
    · rw [he, s.submitTo_empty i content hs]
    · rw [he, s.submitTo_failed i content hs, hf]
      rfl
    · rw [he, s.submitTo_standing i content hs, if_neg (Nat.not_lt.2 (show Config.unitPlaces ≤ _ from hfull))]
      rfl
    · rw [he, s.submitTo_standing i content hs, if_pos (show _ < Config.unitPlaces from hroom), State.acceptUnit_eq]
      rfl

end Sys2Proof.Machine

/-! WRITE ENTRY: its tests in order, uniqueness, and the entry written (O41). -/

namespace Sys2Proof.Machine

/-! ### The range tests (R7) -/

/-- The tests of a WRITE ENTRY in their order, with the positions that they report. -/
def writeTests (x c1 c0 role far ch cls o1 o0 : Byte) : List (Nat × Bool) :=
  [(1, decide (63 < x.toNat)), (2, decide (c1 = 0 ∧ c0 = 0)), (4, decide (1 < role.toNat)),
    (5, decide (31 < far.toNat)), (6, decide (63 < ch.toNat)), (9, decide (7 < cls.toNat)),
    (10, decide (8191 < o1.toNat * 256 + o0.toNat))]

/-- A chain of tests reports the first that holds. -/
theorem find?_tests (p1 p2 p4 p5 p6 p9 p10 : Prop) [Decidable p1] [Decidable p2] [Decidable p4] [Decidable p5]
    [Decidable p6] [Decidable p9] [Decidable p10] :
    (if p1 then some 1 else if p2 then some 2 else if p4 then some 4 else if p5 then some 5 else if p6 then some 6
      else if p9 then some 9 else if p10 then some 10 else none) =
    (([(1, decide p1), (2, decide p2), (4, decide p4), (5, decide p5), (6, decide p6), (9, decide p9),
      (10, decide p10)] : List (Nat × Bool)).find? fun t => t.2).map Prod.fst := by
  have cons : ∀ (n : Nat) (p : Prop) [Decidable p] (l : List (Nat × Bool)),
      (((n, decide p) :: l).find? fun t => t.2).map Prod.fst = if p then some n else (l.find? fun t => t.2).map Prod.fst := by
    intro n p _ l
    by_cases hp : p <;> simp [hp]
  rw [cons, cons, cons, cons, cons, cons, cons]
  rfl

theorem badPosition_eq (x c1 c0 role far ch tx rx cls o1 o0 tag : Byte) :
    badPosition [x, c1, c0, role, far, ch, tx, rx, cls, o1, o0, tag] =
      ((writeTests x c1 c0 role far ch cls o1 o0).find? fun t => t.2).map Prod.fst := by
  have hzero : natOfBytes [c1, c0] = 0 ↔ c1 = 0 ∧ c0 = 0 := by
    rw [natOfBytes_two]
    bv_omega
  unfold writeTests
  rw [← find?_tests]
  unfold badPosition
  show (if 63 < x.toNat then _ else if natOfBytes [c1, c0] = 0 then _ else if 1 < role.toNat then _ else
    if 31 < far.toNat then _ else if 63 < ch.toNat then _ else if 7 < cls.toNat then _ else
    if 8191 < natOfBytes [o1, o0] then _ else _) = _
  rw [natOfBytes_two o1 o0]
  refine if_congr Iff.rfl rfl (if_congr hzero rfl rfl)

theorem writeTests_none {x c1 c0 role far ch cls o1 o0 : Byte}
    (h : ((writeTests x c1 c0 role far ch cls o1 o0).find? fun t => t.2) = none) :
    ch.toNat ≤ 63 ∧ cls.toNat ≤ 7 ∧ o1.toNat * 256 + o0.toNat ≤ 8191 := by
  rw [List.find?_eq_none] at h
  simp only [writeTests, List.forall_mem_cons, decide_eq_true_eq, Nat.not_lt] at h
  obtain ⟨-, -, -, -, hch, hcls, hord, -⟩ := h
  exact ⟨hch, hcls, hord⟩

/-! ### Uniqueness (R5, R7) -/

theorem find?_finRange_of_least {p : Index → Bool} {j : Index} (hp : p j = true) (hmin : ∀ k, p k = true → j ≤ k) :
    (List.finRange 64).find? p = some j := by
  cases h : (List.finRange 64).find? p with
  | none => exact absurd hp (List.find?_eq_none.1 h j (List.mem_finRange j))
  | some k =>
    obtain ⟨hk, n, hn, hget, hbefore⟩ := List.find?_eq_some_iff_getElem.1 h
    have hkn : k.val = n := by rw [← hget]; simp
    rcases Nat.lt_or_ge j.val n with hlt | hge
    · have hno := hbefore j.val hlt
      rw [show (List.finRange 64)[j.val]'(by simp) = j by simp, hp] at hno
      cases hno
    · exact congrArg some (le_antisymm (by rw [Fin.le_def]; omega) (hmin k hk))

/-- The entry that a clash is reported with: the lowest that holds the field. -/
theorem State.clashing_eq_some {s : State} {p : Entry → Bool} {P : Entry → Prop} (hp : ∀ e, p e = true ↔ P e) {j : Index}
    (hj : (s.entry j).state ≠ .empty ∧ P (s.entry j))
    (hmin : ∀ k, (s.entry k).state ≠ .empty ∧ P (s.entry k) → j ≤ k) : s.clashing p = some j := by
  have held : ∀ k, ((s.entry k).state != .empty && p (s.entry k)) = true ↔ (s.entry k).state ≠ .empty ∧ P (s.entry k) :=
    fun k => by rw [Bool.and_eq_true, bne_iff_ne, hp]
  exact find?_finRange_of_least ((held j).2 hj) fun k hk => hmin k ((held k).1 hk)

theorem State.clashing_eq_none {s : State} {p : Entry → Bool} {P : Entry → Prop} (hp : ∀ e, p e = true ↔ P e)
    (hno : ∀ k, ¬ ((s.entry k).state ≠ .empty ∧ P (s.entry k))) : s.clashing p = none := by
  refine (s.findEntry_none _).2 fun k => ?_
  rw [← Bool.not_eq_true, Bool.and_eq_true, bne_iff_ne, hp]
  exact hno k

section
variable {s : State} {i : Index} {e : Entry}

theorem State.duplicate_occupied (h : (s.entry i).state ≠ .empty) : s.duplicate i e = some (1, i) := if_pos h

theorem State.duplicate_circuit (h : (s.entry i).state = .empty) {j : Index}
    (hc : s.clashing (fun x => x.circuit == e.circuit) = some j) : s.duplicate i e = some (2, j) := by
  unfold State.duplicate
  rw [if_neg (not_not.2 h), hc]

theorem State.duplicate_txSlot (h : (s.entry i).state = .empty) {j : Index}
    (hc : s.clashing (fun x => x.circuit == e.circuit) = none) (ht : s.clashing (fun x => x.txSlot == e.txSlot) = some j) :
    s.duplicate i e = some (3, j) := by
  unfold State.duplicate
  rw [if_neg (not_not.2 h), hc, ht]

theorem State.duplicate_channel (h : (s.entry i).state = .empty) {j : Index}
    (hc : s.clashing (fun x => x.circuit == e.circuit) = none) (ht : s.clashing (fun x => x.txSlot == e.txSlot) = none)
    (hl : s.clashing (fun x => x.channel == e.channel) = some j) : s.duplicate i e = some (4, j) := by
  unfold State.duplicate
  rw [if_neg (not_not.2 h), hc, ht, hl]

theorem State.duplicate_unlike (h : (s.entry i).state = .empty)
    (hc : s.clashing (fun x => x.circuit == e.circuit) = none) (ht : s.clashing (fun x => x.txSlot == e.txSlot) = none)
    (hl : s.clashing (fun x => x.channel == e.channel) = none) : s.duplicate i e = none := by
  unfold State.duplicate
  rw [if_neg (not_not.2 h), hc, ht, hl]

theorem State.writeAt_duplicate {kind : Byte} {j : Index} (h : s.duplicate i e = some (kind, j)) :
    s.writeAt i e = s.answering [0x05, kind, BitVec.ofNat 8 j.val] := by
  unfold State.writeAt
  rw [h]
  rfl

theorem State.writeAt_unlike (h : s.duplicate i e = none) : s.writeAt i e = s.placeEntry i e := by
  unfold State.writeAt
  rw [h]

/-! ### The entry placed (R8, R9) -/

theorem State.placeEntry_steady_lost (hs : e.state = .parked) (hc : s.relink.campaign = .steady)
    (hw : s.switch.highway = .lost) : s.placeEntry i e = (s.withEntry i e).answering (writtenResult e) := by
  have hstate : ((s.withEntry i e).entry i).state = .parked := by rw [State.withEntry_entry_self, hs]
  have hreq : (s.setEntry i e).requestCheck i = s.withEntry i e :=
    (State.requestCheck_of_lost (s.withEntry i e) i hw).trans (State.checkCannotRun_of_parked _ i hstate)
  unfold State.placeEntry
  rw [if_pos hc, hreq]
  rfl

theorem State.placeEntry_steady_present (hc : s.relink.campaign = .steady) (hw : s.switch.highway = .present) :
    s.placeEntry i e = ((s.withEntry i e).checkAsked i).answering (writtenResult e) := by
  have hreq : (s.setEntry i e).requestCheck i = (s.withEntry i e).checkAsked i :=
    State.requestCheck_of_present (s.withEntry i e) i hw
  unfold State.placeEntry
  rw [if_pos hc, hreq]
  rfl

theorem State.placeEntry_relinking (hc : s.relink.campaign ≠ .steady) : s.placeEntry i e =
    (s.withEntry i { e with state := .pending, deadline := s.pendingDeadline e.role }).answering
      (writtenResult { e with state := .pending, deadline := s.pendingDeadline e.role }) := by
  unfold State.placeEntry
  rw [if_neg hc]
  rfl

end

/-! ### The entry that the bytes describe (Table 1-4) -/

/-- The entry written, its numbers from their bytes. -/
def describedEntry (own : CardSlot) (c1 c0 role far ch tx rx cls o1 o0 : Byte) : Entry :=
  let written : Entry := { Entry.cleared with
    state := .parked, circuit := c1 ++ c0, role := if role = 0 then .origin else .far
    farSlot := far.setWidth 5, channel := ch.setWidth 6, txSlot := tx, rxSlot := rx
    cls := cls.setWidth 3, ordinal := (o1 ++ o0).setWidth 13
    key := BitVec.ofNat 16 (cls.toNat * 8192 + (o1.toNat * 256 + o0.toNat)) }
  { written with fingerprint := fingerprintOf own written }

theorem append_toNat (hi lo : Byte) : (hi ++ lo).toNat = hi.toNat * 256 + lo.toNat := word16_toNat hi lo

theorem writtenEntry_eq (own : CardSlot) (x c1 c0 role far ch tx rx cls o1 o0 tag : Byte) (hcls : cls.toNat ≤ 7)
    (hord : o1.toNat * 256 + o0.toNat ≤ 8191) :
    writtenEntry own [x, c1, c0, role, far, ch, tx, rx, cls, o1, o0, tag] =
      describedEntry own c1 c0 role far ch tx rx cls o1 o0 := by
  have hcircuit : BitVec.ofNat 16 (natOfBytes [c1, c0]) = c1 ++ c0 := by
    rw [natOfBytes_two, ← append_toNat, BitVec.ofNat_toNat, BitVec.setWidth_eq]
  have hordinal : BitVec.ofNat 13 (natOfBytes [o1, o0]) = (o1 ++ o0).setWidth 13 := by
    rw [natOfBytes_two, ← append_toNat, BitVec.ofNat_toNat]
  have hkey : keyOf (cls.setWidth 3) ((o1 ++ o0).setWidth 13) =
      BitVec.ofNat 16 (cls.toNat * 8192 + (o1.toNat * 256 + o0.toNat)) := by
    unfold keyOf
    rw [BitVec.toNat_setWidth, BitVec.toNat_setWidth, append_toNat, Nat.mod_eq_of_lt (show cls.toNat < 2 ^ 3 by omega),
      Nat.mod_eq_of_lt (show _ < 2 ^ 13 by omega)]
  have hdef : writtenEntry own [x, c1, c0, role, far, ch, tx, rx, cls, o1, o0, tag] =
      (let e : Entry := { Entry.cleared with
        state := .parked, circuit := BitVec.ofNat 16 (natOfBytes [c1, c0]), role := if role = 0 then .origin else .far
        farSlot := far.setWidth 5, channel := ch.setWidth 6, txSlot := tx, rxSlot := rx
        cls := cls.setWidth 3, ordinal := BitVec.ofNat 13 (natOfBytes [o1, o0])
        key := keyOf (cls.setWidth 3) (BitVec.ofNat 13 (natOfBytes [o1, o0])) }
      { e with fingerprint := fingerprintOf own e }) := rfl
  rw [hdef, hcircuit, hordinal, hkey]
  rfl

theorem exec_writeEntry_of_given {s : State} {ps : List Byte} (h : s.given ps) (hl : ps.length = 12) (ha : s.active = true) :
    exec .writeEntry s = .next ((badPosition ps).elim
      ((indexOf (paramByte ps 1)).elim (s.leaveResult [rBadParameter, 1]) fun i => s.writeAt i (writtenEntry s.cardSlot ps))
      fun n => s.leaveResult [rBadParameter, byteOf n]) := by
  rw [h.exec (c := .writeEntry) rfl]
  unfold State.write
  rw [if_neg (by rw [ha]; nofun), if_neg (by rw [h.paramCount_eq, hl]; exact fun hn => hn rfl), h.params_eq]
  cases badPosition ps with
  | some n => rfl
  | none => cases indexOf (paramByte ps 1) <;> rfl

/-- Settles O41: the range tests, the three fields apart, and the entry placed by campaign and highway. -/
theorem writeEntryTestsThenWrites : Obligations.WriteEntryTestsThenWrites := by
  unfold Obligations.WriteEntryTestsThenWrites
  intro s x c1 c0 role far ch tx rx cls o1 o0 tag h ha
  have hexec := exec_writeEntry_of_given h rfl ha
  rw [badPosition_eq] at hexec
  refine ⟨fun n hn => ?_, fun i hn hi => ?_⟩
  · rw [show (writeTests x c1 c0 role far ch cls o1 o0).find? (fun t => t.2) = some (n, true) from hn] at hexec
    exact hexec
  · rw [show (writeTests x c1 c0 role far ch cls o1 o0).find? (fun t => t.2) = none from hn, paramByte_one,
      indexOf_of_val hi] at hexec
    obtain ⟨hch, hcls, hord⟩ := writeTests_none hn
    have hwrite : exec .writeEntry s = .next (s.writeAt i (describedEntry s.cardSlot c1 c0 role far ch tx rx cls o1 o0)) := by
      rw [← writtenEntry_eq s.cardSlot x c1 c0 role far ch tx rx cls o1 o0 tag hcls hord]
      exact hexec
    dsimp only
    generalize he : describedEntry s.cardSlot c1 c0 role far ch tx rx cls o1 o0 = e at hwrite
    have hcircuit : ∀ y : Entry, (y.circuit == e.circuit) = true ↔ y.circuit = c1 ++ c0 := fun y => by
      rw [beq_iff_eq, ← he]; rfl
    have htx : ∀ y : Entry, (y.txSlot == e.txSlot) = true ↔ y.txSlot = tx := fun y => by
      rw [beq_iff_eq, ← he]; rfl
    have hchannel : ∀ y : Entry, (y.channel == e.channel) = true ↔ y.channel.toNat = ch.toNat := fun y => by
      rw [beq_iff_eq, ← he, ← BitVec.toNat_inj]
      show y.channel.toNat = (ch.setWidth 6).toNat ↔ _
      rw [BitVec.toNat_setWidth, Nat.mod_eq_of_lt (show ch.toNat < 2 ^ 6 by omega)]
    refine ⟨fun hne => ?_, fun hempty => ⟨fun j hj => ?_, fun hc j hj => ?_, fun hc ht j hj => ?_, fun hc ht hl => ?_⟩⟩
    · rw [hwrite, State.writeAt_duplicate (State.duplicate_occupied hne)]
    · rw [hwrite, State.writeAt_duplicate (State.duplicate_circuit hempty (State.clashing_eq_some hcircuit hj.1 hj.2))]
    · rw [hwrite, State.writeAt_duplicate (State.duplicate_txSlot hempty (State.clashing_eq_none hcircuit hc)
        (State.clashing_eq_some htx hj.1 hj.2))]
    · rw [hwrite, State.writeAt_duplicate (State.duplicate_channel hempty (State.clashing_eq_none hcircuit hc)
        (State.clashing_eq_none htx ht) (State.clashing_eq_some hchannel hj.1 hj.2))]
    · rw [hwrite, State.writeAt_unlike (State.duplicate_unlike hempty (State.clashing_eq_none hcircuit hc)
        (State.clashing_eq_none htx ht) (State.clashing_eq_none hchannel hl))]
      have hrole : e.role = if role = 0 then .origin else .far := by rw [← he]; rfl
      refine ⟨fun hcamp hw => ?_, fun hcamp hw => ?_, fun hcamp => ?_, fun hcamp => ?_⟩
      · rw [State.placeEntry_steady_lost (by rw [← he]; rfl) hcamp hw, ← he]
        rfl
      · rw [State.placeEntry_steady_present hcamp hw, ← he]
        rfl
      · have hd : s.pendingDeadline e.role = none := if_neg fun hp => by rw [hcamp] at hp; exact absurd hp.2 (by decide)
        rw [State.placeEntry_relinking (by rw [hcamp]; nofun), hd, ← he]
        rfl
      · have hd : s.pendingDeadline e.role = if role = 0 then none else some (s.now + s.settings.p) := by
          unfold State.pendingDeadline
          rw [hrole]
          by_cases hr0 : role = 0
          · rw [if_pos hr0, if_pos hr0, if_neg (fun hp => absurd hp.1 (by decide))]
          · rw [if_neg hr0, if_neg hr0, if_pos ⟨rfl, hcamp⟩]
        rw [State.placeEntry_relinking (by rw [hcamp]; nofun), hd, ← he]
        rfl

end Sys2Proof.Machine

/-! The reading commands: READ ENTRY, READ ROSTER, READ CAMPAIGN and READ FIGURES (O44). -/

namespace Sys2Proof.Machine

/-! ### Fields as bytes -/

theorem hiLo_eq (w : BitVec 16) : [hiByte w, loByte w] = [BitVec.ofNat 8 (w.toNat / 256), BitVec.ofNat 8 w.toNat] := by
  rw [hiByte_eq, loByte_eq]

theorem Role.code_eq (r : Role) : Role.code r = if r = .origin then 0 else 1 := by
  cases r <;> rfl

theorem RollKind.code_eq (k : RollKind) : RollKind.code k = if k = .cold then 1 else 2 := by
  cases k <;> rfl

theorem deadlineBytes_eq (now : Nat) (d : Option Nat) : deadlineBytes now d =
    [BitVec.ofNat 8 (d.elim 65535 (fun t => t - now) / 256), BitVec.ofNat 8 (d.elim 65535 fun t => t - now)] := by
  cases d with
  | none =>
    show [0xFF#8, 0xFF#8] = [BitVec.ofNat 8 (65535 / 256), BitVec.ofNat 8 65535]
    decide
  | some t => rfl

theorem failureBytes_eq (f : Option Failure) :
    failureBytes f = f.elim [0x00, 0x00] fun f => [f.reason.code, farCode f.far] := by
  cases f <;> rfl

theorem indexByte_of_val {x : Byte} {i : Index} (h : i.val = x.toNat) : indexByte i = x := by
  unfold indexByte
  rw [h, byteOf_toNat]

theorem slotByte_of_val {x : Byte} {c : CardSlot} (h : c.toNat = x.toNat) : slotByte c = x := by
  apply BitVec.eq_of_toNat_eq
  rw [slotByte, BitVec.toNat_setWidth_of_le (by decide), h]

/-! ### READ ENTRY (R14) -/

theorem exec_readEntry_of_given {s : State} {x : Byte} (h : s.given [x]) (ha : s.active = true) :
    exec .readEntry s = .next ((indexOf x).elim (s.leaveResult [rBadParameter, 1])
      fun i => s.leaveResult (rDone :: entryRecord s.now i (s.entry i))) := by
  rw [h.exec (c := .readEntry) rfl]
  unfold State.read
  rw [if_neg (by rw [ha]; nofun), if_neg (by rw [h.paramCount_eq]; exact fun hn => hn rfl), h.params_eq, paramByte_one]
  cases indexOf x <;> rfl

theorem entryRecord_cleared (now : Nat) (i : Index) :
    entryRecord now i Entry.cleared = List.replicate 23 0x00 ++ [0xFF, 0xFF, 0x00, 0x00] := rfl

theorem entryRecord_eq (now : Nat) {x : Byte} {i : Index} {e : Entry} (hi : i.val = x.toNat) (he : e.state ≠ .empty) :
    entryRecord now i e =
      let number := fun n => [BitVec.ofNat 8 (n / 256), BitVec.ofNat 8 n]
      [x, e.state.code] ++ number e.circuit.toNat
        ++ [if e.role = .origin then 0 else 1, e.farSlot.setWidth 8, e.channel.setWidth 8, e.txSlot, e.rxSlot,
          e.cls.setWidth 8]
        ++ number e.ordinal.toNat ++ number e.key.toNat ++ number e.fingerprint.toNat
        ++ [e.txSeq, e.rxExpected, BitVec.ofNat 8 e.attempt, BitVec.ofNat 8 e.misses,
          BitVec.ofNat 8 e.noReceipt, BitVec.ofNat 8 e.busy, if e.late then 1 else 0]
        ++ number (e.deadline.elim 65535 fun t => t - now)
        ++ e.failure.elim [0x00, 0x00] fun f => [f.reason.code, farCode f.far] := by
  unfold entryRecord
  rw [if_neg he, indexByte_of_val hi, Role.code_eq, deadlineBytes_eq, failureBytes_eq, hiByte_eq, loByte_eq, hiByte_eq,
    loByte_eq, hiByte_eq, loByte_eq]
  rfl

/-! ### READ ROSTER (R173) -/

/-- The bits of a number built from its bits, the most significant first. -/
theorem testBit_foldl_range (f : Nat → Bool) (m j : Nat) :
    ((List.range m).foldl (fun n k => n * 2 + if f k then 1 else 0) 0).testBit j = (decide (j < m) && f (m - 1 - j)) := by
  induction m generalizing j with
  | zero => simp
  | succ m ih =>
    rw [List.range_succ, List.foldl_append, List.foldl_cons, List.foldl_nil]
    generalize (List.range m).foldl (fun n k => n * 2 + if f k then 1 else 0) 0 = n at ih
    cases j with
    | zero => cases hf : f m <;> simp [hf]
    | succ j =>
      have hdiv : (n * 2 + if f m then 1 else 0) / 2 = n := by split <;> omega
      rw [Nat.testBit_succ, hdiv, ih]
      simp only [Nat.succ_lt_succ_iff, show m + 1 - 1 - (j + 1) = m - 1 - j by omega]

theorem presenceByte_bit (roster : Vector RosterRecord 32) (base j : Nat) (hj : j < 8) (hb : base + j < 32) :
    (presenceByte roster base).getLsbD j = (roster[base + j]'hb).heard := by
  unfold presenceByte byteOf
  rw [BitVec.getLsbD_ofNat, testBit_foldl_range (fun k => (roster[base + 7 - k]?.getD RosterRecord.absent).heard)]
  rw [show base + 7 - (8 - 1 - j) = base + j by omega, Vector.getElem?_eq_getElem hb]
  simp [hj]

theorem presenceBytes_bit (s : State) (c : CardSlot) :
    (presenceByte s.relink.roster 24 ++ presenceByte s.relink.roster 16 ++ presenceByte s.relink.roster 8
      ++ presenceByte s.relink.roster 0).getLsbD c.toNat = (s.relink.roster[c.toFin]).heard := by
  have hc := c.isLt
  have bit : ∀ base j, j < 8 → base + j = c.toNat →
      (presenceByte s.relink.roster base).getLsbD j = (s.relink.roster[c.toFin]).heard := fun base j hj hbase => by
    rw [presenceByte_bit s.relink.roster base j hj (by omega)]
    simp only [hbase]
    rfl
  rw [BitVec.getLsbD_append, BitVec.getLsbD_append, BitVec.getLsbD_append]
  split
  · next h0 => exact bit 0 _ h0 (by omega)
  · split
    · next h0 h1 => exact bit 8 _ h1 (by omega)
    · split
      · next h0 h1 h2 => exact bit 16 _ h2 (by omega)
      · next h0 h1 h2 => exact bit 24 _ (by omega) (by omega)

theorem exec_readRoster_of_given {s : State} {x : Byte} (h : s.given [x]) : exec .readRoster s = .next (
    if 31 < x.toNat then s.answering [0x04, 0x01]
    else s.answering (rDone :: rosterRecordBytes (x.setWidth 5) s.relink.roster[(x.setWidth 5).toFin])) := by
  rw [h.exec (c := .readRoster) rfl]
  unfold State.readRosterCmd
  rw [if_neg (by rw [h.paramCount_eq]; nofun), if_neg (by rw [h.paramCount_eq]; exact fun hn => hn rfl)]
  have hx : paramByte s.port.params 1 = x := by rw [h.params_eq, paramByte_one]
  exact congrArg Host.Outcome.next (if_congr (by rw [hx]) rfl (congrArg (fun y : Byte =>
    s.leaveResult (rDone :: rosterRecordBytes (y.setWidth 5) s.relink.roster[(y.setWidth 5).toFin])) hx))

theorem rosterRecordBytes_eq {x : Byte} {c : CardSlot} (hc : c.toNat = x.toNat) (r : RosterRecord) :
    rosterRecordBytes c r = [x, if r.heard then 1 else 0] ++ r.roll.elim [0x00, 0x00, 0x00, 0x00] fun k =>
      [if k.1 = .cold then 1 else 2, BitVec.ofNat 8 (k.2 / 65536), BitVec.ofNat 8 (k.2 / 256), BitVec.ofNat 8 k.2] := by
  unfold rosterRecordBytes
  rw [slotByte_of_val hc]
  cases r.roll with
  | none => rfl
  | some k =>
    obtain ⟨kind, figure⟩ := k
    show _ ++ RollKind.code kind :: bytes24 figure = _
    rw [RollKind.code_eq]
    rfl

/-! ### READ CAMPAIGN (R174) -/

theorem find?_finRange_least {p : Index → Bool} {i : Index} (h : (List.finRange 64).find? p = some i) :
    p i = true ∧ ∀ j, j < i → p j = false := by
  obtain ⟨hi, n, hn, hget, hbefore⟩ := List.find?_eq_some_iff_getElem.1 h
  have hin : i.val = n := by rw [← hget]; simp
  refine ⟨hi, fun j hj => ?_⟩
  have hno := hbefore j.val (by rw [← hin]; exact hj)
  rw [show (List.finRange 64)[j.val]'(by simp) = j by simp] at hno
  simpa using hno

theorem State.biddingByte_eq {s : State} {bidding : Byte}
    (hfirst : ∀ i, (s.entry i).state = .bidding → (∀ j, j < i → (s.entry j).state ≠ .bidding) →
      bidding = BitVec.ofNat 8 i.val)
    (hnone : (∀ i, (s.entry i).state ≠ .bidding) → bidding = 0xFF) : biddingByte s.biddingEntry = bidding := by
  cases h : s.biddingEntry with
  | none =>
    refine (hnone fun i hi => ?_).symm
    have := (s.findEntry_none _).1 h i
    rw [hi] at this
    cases this
  | some i =>
    have hfind : (List.finRange 64).find? (fun i => (s.entry i).state == .bidding) = some i := h
    obtain ⟨hi, hbefore⟩ := find?_finRange_least hfind
    refine (hfirst i (beq_iff_eq.1 hi) fun j hj hb => ?_).symm
    have := hbefore j hj
    rw [hb] at this
    cases this

theorem pendingRollByte_eq (k : Option RollKind) : pendingRollByte k = k.elim 0 fun k => if k = .cold then 1 else 2 := by
  cases k with
  | none => rfl
  | some k => exact RollKind.code_eq k

theorem answerTimerByte_eq (now : Nat) (t : Option Nat) :
    answerTimerByte now t = t.elim 0xFF fun t => BitVec.ofNat 8 (t - now) := by
  cases t <;> rfl

theorem gatherBytes_eq (now : Nat) (t : Option Nat) : gatherBytes now t =
    [BitVec.ofNat 8 (t.elim 65535 (fun t => t - now) / 256), BitVec.ofNat 8 (t.elim 65535 fun t => t - now)] :=
  deadlineBytes_eq now t

theorem exec_readCampaign_of_given {s : State} (h : s.given []) :
    exec .readCampaign s = .next (s.answering (rDone :: s.campaignBytes)) := by
  rw [h.exec (c := .readCampaign) rfl]
  unfold State.readCampaignCmd
  rw [if_neg (by rw [h.paramCount_eq]; exact fun hn => hn rfl)]
  rfl

theorem exec_readFigures_of_given {s : State} (h : s.given []) :
    exec .readFigures s = .next (s.answering (rDone :: s.figureBytes)) := by
  rw [h.exec (c := .readFigures) rfl]
  unfold State.readFiguresCmd
  rw [if_neg (by rw [h.paramCount_eq]; exact fun hn => hn rfl)]
  rfl

/-- Settles O44: the bytes of each reading command, field by field. -/
theorem readCommandsShowState : Obligations.ReadCommandsShowState := by
  unfold Obligations.ReadCommandsShowState
  refine ⟨rfl, rfl, rfl, rfl, fun s x h ha => ⟨fun hx => ?_, fun i hi => ⟨fun he => ?_, fun he => ?_⟩⟩, fun s h => ?_,
    fun s x h hx => ?_, fun s x c h hc => ?_, fun s h => ?_, fun s h => ?_⟩
  · rw [exec_readEntry_of_given h ha, indexOf_of_lt hx]
    rfl
  · rw [exec_readEntry_of_given h ha, indexOf_of_val hi, Option.elim_some]
    rw [show s.entry i = Entry.cleared from he, entryRecord_cleared]
    rfl
  · rw [exec_readEntry_of_given h ha, indexOf_of_val hi, Option.elim_some]
    rw [entryRecord_eq s.now hi he]
    rfl
  · refine ⟨_, _, _, _, ?_, presenceBytes_bit s⟩
    rw [h.exec (c := .readRoster) rfl]
    unfold State.readRosterCmd
    rw [if_pos (show s.port.paramCount = 0 from h.paramCount_eq)]
    rfl
  · rw [exec_readRoster_of_given h, if_pos hx]
  · obtain rfl : c = x.setWidth 5 := by
      apply BitVec.eq_of_toNat_eq
      rw [BitVec.toNat_setWidth, ← hc, Nat.mod_eq_of_lt c.isLt]
    rw [exec_readRoster_of_given h, if_neg (by have := (x.setWidth 5).isLt; omega), rosterRecordBytes_eq hc]
    rfl
  · intro r number left bidding hfirst hnone
    rw [exec_readCampaign_of_given h]
    unfold State.campaignBytes
    dsimp only
    rw [State.biddingByte_eq hfirst hnone, pendingRollByte_eq, answerTimerByte_eq, gatherBytes_eq]
    cases s.relink.front <;> cases s.relink.openBid <;> cases s.relink.settleTimer <;> rfl
  · rw [exec_readFigures_of_given h]
    rfl

end Sys2Proof.Machine

/-! Accesses to the port, and the records that DELIVERY serves (O46, O47). -/

namespace Sys2Proof.Machine

/-! ### The bits of the LATCH and STATUS bytes (Tables 10-2 and 10-8) -/

theorem latchFlags_bits : ∀ pending clash fault lost stuck : Bool,
    let b := flagBit pending 7 ||| flagBit clash 3 ||| flagBit fault 2 ||| flagBit lost 1 ||| flagBit stuck 0
    (b.getLsbD 7 = true ↔ pending = true) ∧ b.extractLsb' 4 3 = 0 ∧ (b.getLsbD 3 = true ↔ clash = true)
      ∧ (b.getLsbD 2 = true ↔ fault = true) ∧ (b.getLsbD 1 = true ↔ lost = true)
      ∧ (b.getLsbD 0 = true ↔ stuck = true) := by decide

theorem statusFlags_bits (c : Campaign) : ∀ active pending notice delivery overflow : Bool,
    let b := flagBit active 7 ||| (c.code <<< 5) ||| flagBit pending 4 ||| flagBit notice 3 ||| flagBit delivery 2
      ||| flagBit overflow 1
    (b.getLsbD 7 = true ↔ active = true) ∧ b.extractLsb' 5 2 = (match c with | .steady => 0 | .gather => 1 | .contend => 2)
      ∧ (b.getLsbD 4 = true ↔ pending = true) ∧ (b.getLsbD 3 = true ↔ notice = true)
      ∧ (b.getLsbD 2 = true ↔ delivery = true) ∧ (b.getLsbD 1 = true ↔ overflow = true) ∧ b.getLsbD 0 = false := by
  cases c <;> decide

theorem State.noticeNonEmpty_iff (s : State) :
    s.noticeNonEmpty = true ↔ s.port.notices ≠ [] ∨ s.port.noticeBuffer ≠ none := by
  simp [State.noticeNonEmpty, Option.isSome_iff_ne_none]

theorem State.deliveryNonEmpty_iff (s : State) :
    s.deliveryNonEmpty = true ↔ s.delivery.queue ≠ [] ∨ s.delivery.buffer ≠ none := by
  simp [State.deliveryNonEmpty, Option.isSome_iff_ne_none]

/-! ### Reads (R37, R164, R183) -/

theorem State.latchRead_of_running {s : State} (hr : s.running = true) : s.latchRead = s.latchByte := if_pos hr

section
variable {s : State}

theorem exec_resultRead_of_stopped (hr : s.running = false) : exec .resultRead s = .next (s.putData 0xFF) :=
  congrArg Host.Outcome.next (if_neg (by rw [hr]; nofun))

theorem exec_statusRead_of_stopped (hr : s.running = false) : exec .statusRead s = .next (s.putData 0xFF) :=
  congrArg Host.Outcome.next (if_neg (by rw [hr]; nofun))

theorem exec_noticeRead_of_stopped (hr : s.running = false) : exec .noticeRead s = .next (s.putData 0xFF) :=
  congrArg Host.Outcome.next (if_neg (by rw [hr]; nofun))

theorem exec_deliveryRead_of_stopped (hr : s.running = false) : exec .deliveryRead s = .next (s.putData 0xFF) :=
  congrArg Host.Outcome.next (if_neg (by rw [hr]; nofun))

theorem exec_resultRead_of_low (hr : s.running = true) (hc : s.port.crstLow = true) :
    exec .resultRead s = .next (s.putData 0) := congrArg Host.Outcome.next ((if_pos hr).trans (if_pos hc))

theorem exec_noticeRead_of_low (hr : s.running = true) (hc : s.port.crstLow = true) :
    exec .noticeRead s = .next (s.putData 0) := congrArg Host.Outcome.next ((if_pos hr).trans (if_pos hc))

theorem exec_deliveryRead_of_low (hr : s.running = true) (hc : s.port.crstLow = true) :
    exec .deliveryRead s = .next (s.putData 0) := congrArg Host.Outcome.next ((if_pos hr).trans (if_pos hc))

theorem exec_resultRead_of_high (hr : s.running = true) (hc : s.port.crstLow = false) :
    exec .resultRead s = .next s.readResult :=
  congrArg Host.Outcome.next ((if_pos hr).trans (if_neg (by rw [hc]; nofun)))

theorem exec_noticeRead_of_high (hr : s.running = true) (hc : s.port.crstLow = false) :
    exec .noticeRead s = .next ((s.putData s.port.noticeByte).onPort CardPort.advanceNotice) :=
  congrArg Host.Outcome.next ((if_pos hr).trans (if_neg (by rw [hc]; nofun)))

theorem exec_deliveryRead_of_high (hr : s.running = true) (hc : s.port.crstLow = false) :
    exec .deliveryRead s = .next ((s.putData s.delivery.byte).onDelivery DeliveryUnit.advance) :=
  congrArg Host.Outcome.next ((if_pos hr).trans (if_neg (by rw [hc]; nofun)))

theorem readAccess_unused {location : BitVec 3} (h : 5 ≤ location.toNat) : readAccess location s = .next s.readUnused := by
  unfold readAccess
  split
  · next h0 => omega
  · next h0 => omega
  · next h0 => omega
  · next h0 => omega
  · next h0 => omega
  · rfl

/-- Outside RUN every read returns $FF (R37). -/
theorem readAccess_of_stopped (hr : s.running = false) (location : BitVec 3) :
    readAccess location s = .next (s.putData 0xFF) := by
  have hn : ¬ s.running = true := by rw [hr]; nofun
  unfold readAccess
  split
  · exact exec_resultRead_of_stopped hr
  · exact exec_statusRead_of_stopped hr
  · exact exec_noticeRead_of_stopped hr
  · exact exec_deliveryRead_of_stopped hr
  · exact congrArg (fun b => Host.Outcome.next (s.putData b)) (if_neg hn)
  · exact congrArg (fun b => Host.Outcome.next (s.putData b)) (if_neg hn)

/-! ### PARAM, RESULT and NOTICE (R166, R168, R177) -/

theorem exec_paramWrite_of_taken (v : Byte) (ht : s.takesCommands = true) :
    exec (.paramWrite v) s = .next (s.onPort fun p => p.append v) := congrArg Host.Outcome.next (if_pos ht)

theorem CardPort.append_of_lt {p : CardPort} (v : Byte) (h : p.params.length < 12) :
    p.append v = { p with params := p.params ++ [v] } := if_pos h

theorem CardPort.append_of_le {p : CardPort} (v : Byte) (h : 12 ≤ p.params.length) :
    p.append v = { p with overlength := true } := if_neg (Nat.not_lt.2 h)

theorem State.readResult_some {b : Byte} (h : s.port.results[s.port.resultPos]? = some b) :
    s.readResult = { s with port := { s.port with dataOut := b, resultPos := s.port.resultPos + 1 } } := by
  unfold State.readResult
  rw [h]
  rfl

theorem State.readResult_none (h : s.port.results.length ≤ s.port.resultPos) : s.readResult = s.putData 0 := by
  unfold State.readResult
  rw [List.getElem?_eq_none h]

theorem CardPort.fetchNotice_eq (p : CardPort) : p.fetchNotice =
    { p with notices := p.notices.tail, noticeBuffer := p.notices.head?, noticePos := 0 } := by
  obtain ⟨mode, settings, params, overlength, results, resultPos, noticeBuffer, noticePos, notices⟩ := p
  cases notices <;> rfl

theorem CardPort.advanceNotice_within {p : CardPort} (h : p.noticePos + 1 < (noticeBytes p.noticeBuffer).length) :
    p.advanceNotice = { p with noticePos := p.noticePos + 1 } := if_pos h

theorem CardPort.advanceNotice_last {p : CardPort} (h : (noticeBytes p.noticeBuffer).length ≤ p.noticePos + 1) :
    p.advanceNotice = { p with notices := p.notices.tail, noticeBuffer := p.notices.head?, noticePos := 0 } :=
  (if_neg (Nat.not_lt.2 h)).trans p.fetchNotice_eq

theorem CardPort.noticeByte_eq {p : CardPort} {b : Byte} (h : (noticeBytes p.noticeBuffer)[p.noticePos]? = some b) :
    p.noticeByte = b := by
  unfold CardPort.noticeByte
  rw [List.getD_eq_getElem?_getD, h]
  rfl

/-- A read of NOTICE within a record. -/
theorem exec_noticeRead_within (hr : s.running = true) (hc : s.port.crstLow = false) {b : Byte}
    (hb : (noticeBytes s.port.noticeBuffer)[s.port.noticePos]? = some b)
    (hlt : s.port.noticePos + 1 < (noticeBytes s.port.noticeBuffer).length) :
    exec .noticeRead s = .next { s with port := { s.port with dataOut := b, noticePos := s.port.noticePos + 1 } } := by
  rw [exec_noticeRead_of_high hr hc, CardPort.noticeByte_eq hb]
  exact congrArg (fun p => Host.Outcome.next { s with port := p })
    (CardPort.advanceNotice_within (p := { s.port with dataOut := b }) hlt)

/-- A read of NOTICE at the last byte of a record, or of the EMPTY marker. -/
theorem exec_noticeRead_last (hr : s.running = true) (hc : s.port.crstLow = false) {b : Byte}
    (hb : (noticeBytes s.port.noticeBuffer)[s.port.noticePos]? = some b)
    (hle : (noticeBytes s.port.noticeBuffer).length ≤ s.port.noticePos + 1) :
    exec .noticeRead s = .next { s with port := { s.port with
      dataOut := b, notices := s.port.notices.tail, noticeBuffer := s.port.notices.head?, noticePos := 0 } } := by
  rw [exec_noticeRead_of_high hr hc, CardPort.noticeByte_eq hb]
  exact congrArg (fun p => Host.Outcome.next { s with port := p })
    (CardPort.advanceNotice_last (p := { s.port with dataOut := b }) hle)

end

/-- Settles O46: each access by power state, CRST level and location. -/
theorem accessesToThePort : Obligations.AccessesToThePort := by
  unfold Obligations.AccessesToThePort
  refine ⟨rfl, fun s => ⟨fun _ _ => rfl, rfl, rfl, rfl, rfl, fun location h hr => ?_, fun hr => ?_,
    fun hr location => readAccess_of_stopped hr location,
    fun hr => ⟨exec_resultRead_of_stopped hr, exec_statusRead_of_stopped hr, exec_noticeRead_of_stopped hr⟩,
    fun hr => ⟨?_, fun hc => ⟨exec_resultRead_of_low hr hc, exec_noticeRead_of_low hr hc⟩, fun hc => ?_⟩⟩⟩
  · rw [readAccess_unused h]
    exact congrArg (fun b => Host.Outcome.next (s.putData b)) (if_pos hr)
  · refine ⟨s.latchByte, ?_, latchFlags_bits _ _ _ _ _⟩
    show Host.Outcome.next (s.putData s.latchRead) = _
    rw [State.latchRead_of_running hr]
    rfl
  · have hbits := statusFlags_bits s.relink.campaign s.active s.port.latchPending s.noticeNonEmpty s.deliveryNonEmpty
      s.port.overflow
    rw [State.noticeNonEmpty_iff, State.deliveryNonEmpty_iff] at hbits
    exact ⟨s.statusByte, congrArg Host.Outcome.next (if_pos hr), hbits⟩
  · have ht := State.takesCommands_of_running hr hc
    refine ⟨fun v h => ?_, fun v h => ?_, fun b hb => ?_, fun h => ?_, fun hb hpos => ?_, fun n hn => ⟨fun b hpos hb => ?_,
      fun hpos => ?_⟩⟩
    · rw [exec_paramWrite_of_taken v ht]
      exact congrArg (fun p => Host.Outcome.next { s with port := p }) (CardPort.append_of_lt v h)
    · rw [exec_paramWrite_of_taken v ht]
      exact congrArg (fun p => Host.Outcome.next { s with port := p }) (CardPort.append_of_le v h)
    · rw [exec_resultRead_of_high hr hc, State.readResult_some hb]
    · rw [exec_resultRead_of_high hr hc, State.readResult_none h]
      rfl
    · rw [exec_noticeRead_last hr hc (b := 0) (by rw [hb, hpos]; rfl) (by rw [hb]; exact Nat.le_add_left _ _), ← hpos]
    · exact exec_noticeRead_within hr hc (by rw [hn]; exact hb) (by rw [hn]; exact Nat.succ_lt_succ hpos)
    · exact exec_noticeRead_last hr hc (by rw [hn, hpos]; rfl) (by rw [hn, hpos]; exact le_rfl)

/-! ### DELIVERY (R157 to R161) -/

theorem State.deliveryLocked_iff (s : State) :
    s.deliveryLocked = true ↔ ∃ r rest, s.delivery.queue = r :: rest ∧ r.gap = true := by
  unfold State.deliveryLocked
  cases s.delivery.queue with
  | nil => simp
  | cons r rest => simp

/-- A fetch: a NONE record leaves the queue, a GAP record stays (R159). -/
theorem State.fetch_eq (s : State) : s.delivery.fetch =
    { queue := if s.deliveryLocked then s.delivery.queue else s.delivery.queue.tail
      buffer := s.delivery.queue.head?, position := 0 } := by
  unfold DeliveryUnit.fetch State.deliveryLocked
  cases s.delivery.queue with
  | nil => rfl
  | cons r rest => cases hr : r.gap <;> simp [hr]

theorem DeliveryUnit.byte_eq {d : DeliveryUnit} {b : Byte} (h : (deliveryBytes d.buffer)[d.position]? = some b) :
    d.byte = b := by
  unfold DeliveryUnit.byte
  rw [List.getD_eq_getElem?_getD, h]
  rfl

theorem DeliveryUnit.advance_within {d : DeliveryUnit} (h : d.position + 1 < (deliveryBytes d.buffer).length) :
    d.advance = { d with position := d.position + 1 } := if_pos h

theorem DeliveryUnit.advance_last {d : DeliveryUnit} (h : (deliveryBytes d.buffer).length ≤ d.position + 1) :
    d.advance = d.fetch := if_neg (Nat.not_lt.2 h)

theorem exec_deliveryRead_byte {s : State} (hr : s.running = true) (hc : s.port.crstLow = false) {b : Byte}
    (hb : (deliveryBytes s.delivery.buffer)[s.delivery.position]? = some b) :
    exec .deliveryRead s = .next { s.putData b with delivery := s.delivery.advance } := by
  rw [exec_deliveryRead_of_high hr hc, DeliveryUnit.byte_eq hb]
  rfl

/-! ### CLEAR CONDITION (R160) -/

theorem State.clearGap_nil {s : State} (h : s.given []) (ha : s.active = true) (hq : s.delivery.queue = []) :
    s.clearGap = s.answering [0x08] := by
  unfold State.clearGap
  rw [if_neg (by rw [ha]; nofun), if_neg (by rw [h.paramCount_eq]; exact fun hn => hn rfl), hq]
  rfl

theorem State.clearGap_cons {s : State} (h : s.given []) (ha : s.active = true) {r : DeliveryRecord}
    {rest : List DeliveryRecord} (hq : s.delivery.queue = r :: rest) : s.clearGap =
      if r.gap then
        { s.answering [0x01, BitVec.ofNat 8 r.entry.val, r.sequence] with
          delivery := { s.delivery.dropGapCopy with queue := rest } }
      else s.answering [0x08] := by
  unfold State.clearGap
  rw [if_neg (by rw [ha]; nofun), if_neg (by rw [h.paramCount_eq]; exact fun hn => hn rfl), hq]
  rfl

theorem DeliveryUnit.dropGapCopy_other {d : DeliveryUnit} (h : ∀ c, d.buffer = some c → c.gap = false) :
    d.dropGapCopy = d := by
  unfold DeliveryUnit.dropGapCopy
  split
  · next r hr => exact if_neg (by rw [h r hr]; nofun)
  · rfl

theorem DeliveryUnit.dropGapCopy_gap {d : DeliveryUnit} {c : DeliveryRecord} (hc : d.buffer = some c) (hg : c.gap = true) :
    d.dropGapCopy = { d with buffer := none, position := 0 } := by
  unfold DeliveryUnit.dropGapCopy
  rw [hc]
  exact if_pos hg

/-- Settles O47: the byte at the read position, what a fetch does, and the GAP record at the head. -/
theorem deliveryServesRecordsAndLocks : Obligations.DeliveryServesRecordsAndLocks := by
  unfold Obligations.DeliveryServesRecordsAndLocks
  refine ⟨fun s => ⟨exec_deliveryRead_of_stopped, exec_deliveryRead_of_low, fun hr hc hb hpos => ?_,
    fun r b hr hc hrec hb => ⟨fun hlt => ?_, fun hlast => ?_⟩, s.deliveryLocked_iff⟩,
    fun s h ha => ⟨fun r rest hq hg => ⟨fun hcopy => ?_, fun c hcopy hcg => ?_⟩, fun r rest hq hg => ?_, fun hq => ?_⟩⟩
  · rw [exec_deliveryRead_byte hr hc (b := 0) (by rw [hb, hpos]; rfl),
      DeliveryUnit.advance_last (by rw [hb]; exact Nat.le_add_left _ _), s.fetch_eq]
    rfl
  · rw [exec_deliveryRead_byte hr hc (by rw [hrec]; exact hb), DeliveryUnit.advance_within (by rw [hrec]; exact hlt)]
    rfl
  · rw [exec_deliveryRead_byte hr hc (by rw [hrec]; exact hb), DeliveryUnit.advance_last (by rw [hrec]; exact hlast.ge),
      s.fetch_eq]
    rfl
  · rw [h.exec (c := .clearCondition) rfl, State.clearGap_cons h ha hq, if_pos hg, DeliveryUnit.dropGapCopy_other hcopy]
  · rw [h.exec (c := .clearCondition) rfl, State.clearGap_cons h ha hq, if_pos hg, DeliveryUnit.dropGapCopy_gap hcopy hcg]
  · rw [h.exec (c := .clearCondition) rfl, State.clearGap_cons h ha hq, if_neg (by rw [hg]; nofun)]
  · rw [h.exec (c := .clearCondition) rfl, State.clearGap_nil h ha hq]

end Sys2Proof.Machine

/-! The pins, the figures, and the keys and fingerprints (O49, O50, O51). -/

namespace Sys2Proof.Machine

/-! ### HDO and HDI (R119, R123) -/

theorem State.hdoSample_live {s : State} (ht : TableSound s) (hr : s.running = true) (hp : s.switch.highway = .present)
    {i : Index} (hi : (s.entry i).state = .live) :
    s.hdoSample (s.entry i).txSlot = some s.switch.outbound[(s.entry i).channel.toFin] := by
  have hdrives : ∀ k, (s.drives k && (s.entry k).txSlot == (s.entry i).txSlot) = true ↔
      (s.entry k).state = .live ∧ (s.entry k).txSlot = (s.entry i).txSlot := fun k => by
    rw [s.drives_eq hr hp, Bool.and_eq_true, beq_iff_eq, beq_iff_eq]
  have hfind : (List.finRange 64).find? (fun k => s.drives k && (s.entry k).txSlot == (s.entry i).txSlot) = some i := by
    refine find?_finRange_of_least ((hdrives i).2 ⟨hi, rfl⟩) fun k hk => ?_
    obtain ⟨hlive, htx⟩ := (hdrives k).1 hk
    by_contra hki
    exact (ht.unique k i (by rw [hlive]; nofun) (by rw [hi]; nofun) fun e => hki (le_of_eq e.symm)).2.1 htx
  unfold State.hdoSample
  rw [hfind]
  rfl

theorem State.hdoSample_none {s : State} {slot : Byte} (h : s.running = false ∨ s.switch.highway = .lost
    ∨ ∀ i, (s.entry i).state = .live → (s.entry i).txSlot ≠ slot) : s.hdoSample slot = none := by
  unfold State.hdoSample
  rw [Option.map_eq_none_iff, List.find?_eq_none]
  intro i _ hi
  rw [Bool.and_eq_true, beq_iff_eq, State.drives, Bool.and_eq_true, Bool.and_eq_true, beq_iff_eq, beq_iff_eq] at hi
  obtain ⟨⟨⟨hlive, hrun⟩, hw⟩, htx⟩ := hi
  rcases h with h | h | h
  · rw [h] at hrun; cases hrun
  · rw [h] at hw; cases hw
  · exact h i hlive htx

theorem State.hdoBit_slotCycle (s : State) (slot : Byte) (b : Fin 8) :
    s.hdoBit (slotCycle slot b) = (s.hdoSample slot).map fun x => x.getLsbD (7 - b.val) := by
  have hslot := slot.isLt
  have hb := b.isLt
  have hmsb : ∀ x : Byte, x.getMsbD b.val = x.getLsbD (7 - b.val) := fun x => by
    rw [BitVec.getMsbD_eq_getLsbD, decide_eq_true hb, Bool.true_and]
  unfold State.hdoBit slotCycle
  rw [if_pos (show 8 * slot.toNat + b.val < Config.frameCycles by have : Config.frameCycles = 2048 := rfl; omega),
    show (8 * slot.toNat + b.val) / 8 = slot.toNat by omega,
    show (8 * slot.toNat + b.val) % 8 = b.val by omega, BitVec.ofNat_toNat, BitVec.setWidth_eq]
  simp only [hmsb]

/-- A byte whose bits stand on a line in their slot's main cycles, the most significant first, is read there (R119). -/
theorem slotOfBits_eq {bits : Nat → Bool} {slot y : Byte}
    (h : ∀ b : Fin 8, bits (slotCycle slot b) = y.getLsbD (7 - b.val)) : slotOfBits bits slot = y := by
  have hnat : ∀ b : Bool, b.toNat = if b then 1 else 0 := by decide
  have hfold : slotOfBits bits slot =
      BitVec.ofNat 8 ((List.range 8).foldl (fun n k => n * 2 + if bits (8 * slot.toNat + k) then 1 else 0) 0) := by
    unfold slotOfBits
    simp only [hnat]
    rfl
  rw [hfold]
  refine BitVec.eq_of_getLsbD_eq fun j hj => ?_
  rw [BitVec.getLsbD_ofNat, testBit_foldl_range fun k => bits (8 * slot.toNat + k)]
  have := h ⟨7 - j, by omega⟩
  unfold slotCycle at this
  rw [show 8 - 1 - j = 7 - j by omega, this, show 7 - (7 - j) = j by omega]
  simp [hj]

theorem State.slotOfBits_hdo (s : State) (slot : Byte) :
    slotOfBits (fun cycle => (s.hdoBit cycle).getD true) slot = (s.hdoSample slot).getD 0xFF := by
  refine slotOfBits_eq fun b => ?_
  rw [s.hdoBit_slotCycle]
  cases s.hdoSample slot with
  | none =>
    have hall : ∀ b : Fin 8, true = (0xFF : Byte).getLsbD (7 - b.val) := by decide
    exact hall b
  | some x => rfl

theorem State.hdiByte_cases (s : State) (frame : HighwayFrame) (slot : Byte) : s.hdiByte frame slot =
    match frame.others[slot.toFin], s.hdoSample slot with
    | some b, _ => b
    | none, some b => b
    | none, none => 0xFF := by
  unfold State.hdiByte
  cases frame.others[slot.toFin] <;> cases s.hdoSample slot <;> rfl

/-! ### SLN and the transmitter (R50, R54, R60, R68) -/

theorem State.slnBits_frame {s : State} {f : TxFrame} (h : s.line.drive = .frame) (hf : s.line.buffer = some f) :
    s.slnBits = lineBits f.frame := by
  unfold State.slnBits State.slnFrame
  rw [h, hf]
  rfl

theorem State.slnBits_abort {s : State} (h : s.line.drive = .abort) : s.slnBits = List.replicate 8 false := by
  unfold State.slnBits
  rw [h]
  rfl

theorem State.slnBits_released {s : State} (h : s.line.drive = .released) : s.slnBits =
    match s.line.receipt with
    | none => []
    | some .taken => [false, true]
    | some .busy => [false, false] := by
  unfold State.slnBits
  rw [h]
  cases s.line.receipt with
  | none => rfl
  | some r => cases r <;> rfl

theorem State.slnBits_silent {s : State} (h : s.line.drive = .released) (hr : s.line.receipt = none) : s.slnBits = [] := by
  rw [State.slnBits_released h, hr]

theorem ShelfLine.transmitter_silenced {l : ShelfLine} (h : l.silenced = true) : l.transmitter = .silenced := if_pos h

theorem ShelfLine.transmitter_idle {l : ShelfLine} (h : l.silenced = false) (hb : l.buffer = none) :
    l.transmitter = .idle := by
  unfold ShelfLine.transmitter
  rw [if_neg (by rw [h]; nofun), hb]

theorem ShelfLine.transmitter_frame {l : ShelfLine} (h : l.silenced = false) {f : TxFrame} (hf : l.buffer = some f) :
    l.transmitter = SendPhase.transmitter f.phase := by
  unfold ShelfLine.transmitter
  rw [if_neg (by rw [h]; nofun), hf]

theorem SendPhase.transmitter_ne (p : SendPhase) : SendPhase.transmitter p ≠ .silenced ∧ SendPhase.transmitter p ≠ .idle := by
  cases p <;> decide

theorem SendPhase.transmitter_iff (p : SendPhase) : (SendPhase.transmitter p = .contending ↔ p = .contending)
    ∧ (SendPhase.transmitter p = .sending ↔ p = .sending) ∧ (SendPhase.transmitter p = .receipt ↔ p = .receipt) := by
  cases p <;> decide

theorem ShelfLine.transmitter_silenced_iff (l : ShelfLine) : l.transmitter = .silenced ↔ l.silenced = true := by
  refine ⟨fun h => ?_, ShelfLine.transmitter_silenced⟩
  by_contra hs
  have hs := Bool.eq_false_iff.2 hs
  cases hb : l.buffer with
  | none => rw [ShelfLine.transmitter_idle hs hb] at h; cases h
  | some f => exact (SendPhase.transmitter_ne _).1 ((ShelfLine.transmitter_frame hs hb).symm.trans h)

theorem ShelfLine.transmitter_idle_iff (l : ShelfLine) : l.transmitter = .idle ↔ l.silenced = false ∧ l.buffer = none := by
  refine ⟨fun h => ?_, fun h => ShelfLine.transmitter_idle h.1 h.2⟩
  have hs : l.silenced = false := Bool.eq_false_iff.2 fun hs => by
    rw [ShelfLine.transmitter_silenced hs] at h
    cases h
  refine ⟨hs, ?_⟩
  cases hb : l.buffer with
  | none => rfl
  | some f => exact absurd ((ShelfLine.transmitter_frame hs hb).symm.trans h) (SendPhase.transmitter_ne _).2

/-! ### UQRDY and ATTN (R137, R182) -/

theorem State.uqrdy_iff (s : State) : s.uqrdy = true ↔ s.active = true ∧ s.running = true ∧ s.units.length < 96 := by
  unfold State.uqrdy
  rw [Bool.and_eq_true, Bool.and_eq_true, decide_eq_true_eq, and_assoc]
  exact Iff.rfl

theorem State.attn_iff (s : State) : s.attn = true ↔ s.running = true
    ∧ ((s.port.mask.getLsbD 0 = true ∧ (s.port.notices ≠ [] ∨ s.port.noticeBuffer ≠ none))
      ∨ (s.port.mask.getLsbD 1 = true ∧ (s.delivery.queue ≠ [] ∨ s.delivery.buffer ≠ none))
      ∨ (s.port.mask.getLsbD 2 = true ∧ s.port.latchPending = true)) := by
  unfold State.attn
  rw [Bool.and_eq_true, Bool.or_eq_true, Bool.or_eq_true, Bool.and_eq_true, Bool.and_eq_true, Bool.and_eq_true,
    s.noticeNonEmpty_iff, s.deliveryNonEmpty_iff, or_assoc]

/-- Settles O49: each pin by the part of the state that it shows. -/
theorem pinsFollowState : Obligations.PinsFollowState := by
  unfold Obligations.PinsFollowState
  intro s
  refine ⟨fun i ht hr hp hi => State.hdoSample_live ht hr hp hi, fun slot h => State.hdoSample_none h,
    fun slot b => ⟨rfl, s.hdoBit_slotCycle slot b⟩, fun cycle h => if_neg (Nat.not_lt.2 h), s.slotOfBits_hdo,
    s.hdiByte_cases, State.slnBits_abort, fun f => State.slnBits_frame, State.slnBits_released, fun hf hs => ?_,
    fun hc ha => ?_, s.line.transmitter_silenced_iff, s.line.transmitter_idle_iff, fun f hs hf => ?_, s.uqrdy_iff,
    s.attn_iff⟩
  · obtain ⟨hdrive, hreceipt⟩ := hf.silent hs
    exact State.slnBits_silent hdrive hreceipt
  · obtain ⟨-, hdrive, hreceipt⟩ := hc.silent ha
    exact State.slnBits_silent hdrive hreceipt
  · rw [ShelfLine.transmitter_frame hs hf]
    exact SendPhase.transmitter_iff f.phase

/-! ### E, M and the survival test (R24, R26, R29) -/

theorem episodeFigure_of_lt {t a : Nat} (ht : t < 16777215) : episodeFigure t a = min ((64 * t + a / 2) / a) 1048575 :=
  if_neg (Nat.not_le.2 ht)

/-- Rounding to the nearest, an exact half up, is exact halves of the doubled quotient. -/
theorem half_up (t a : Nat) (ha : 0 < a) : 2 * a * ((64 * t + a / 2) / a) ≤ 128 * t + a
    ∧ 128 * t + a < 2 * a * ((64 * t + a / 2) / a) + 2 * a := by
  have hdiv := Nat.div_add_mod (64 * t + a / 2) a
  have hmod := Nat.mod_lt (64 * t + a / 2) ha
  rw [Nat.mul_assoc]
  generalize a * ((64 * t + a / 2) / a) = p at *
  omega

theorem quotient_zero_iff (t a : Nat) (ha : 0 < a) : (64 * t + a / 2) / a = 0 ↔ 128 * t < a := by
  rw [Nat.div_eq_zero_iff]
  omega

theorem quotient_lt {t a : Nat} (ht : t < 16777215) (ha : 1025 ≤ a) : (64 * t + a / 2) / a < 1048575 := by
  rw [Nat.div_lt_iff_lt_mul (by omega)]
  omega

/-- Settles O50: the quotient, its limits, the sum and the test. -/
theorem figuresAreReckonedExactly : Obligations.FiguresAreReckonedExactly := by
  unfold Obligations.FiguresAreReckonedExactly
  refine ⟨fun t a ht ha _ => ?_, fun t a ht => if_pos ht, fun t a ht ha => ?_, fun t a ht ha => ?_, fun m e => ?_,
    fun g c figure => ?_⟩
  · obtain ⟨hlo, hhi⟩ := half_up t a (by omega)
    exact ⟨_, hlo, hhi, episodeFigure_of_lt ht⟩
  · rw [episodeFigure_of_lt ht, ← quotient_zero_iff t a (by omega)]
    omega
  · rw [episodeFigure_of_lt ht]
    have := quotient_lt ht ha
    omega
  · unfold accumulate satAdd
    have hcap : Config.figureCap = 1048575 := rfl
    split <;> omega
  · have hsurvives : g.survives c figure = true ↔ figure ≤ g.limit c := decide_eq_true_iff
    refine ⟨hsurvives, fun h hf => hsurvives.2 (h ▸ hf), fun h => ?_⟩
    rw [hsurvives, h, Nat.le_zero]

/-! ### The key (R3) -/

theorem keyOf_toNat (c : BitVec 3) (o : BitVec 13) : (keyOf c o).toNat = c.toNat * 8192 + o.toNat := by
  have hc := c.isLt
  have ho := o.isLt
  unfold keyOf
  rw [BitVec.toNat_ofNat, Nat.mod_eq_of_lt (by omega)]

theorem keyOf_injective {c d : BitVec 3} {o p : BitVec 13} (h : keyOf c o = keyOf d p) : c = d ∧ o = p := by
  have ho := o.isLt
  have hp := p.isLt
  have hn := congrArg BitVec.toNat h
  rw [keyOf_toNat, keyOf_toNat] at hn
  exact ⟨BitVec.eq_of_toNat_eq (by omega), BitVec.eq_of_toNat_eq (by omega)⟩

/-! ### The two-sum (R32, R33) -/

/-- The two sums over bytes. -/
def twoSums (bs : List Byte) : Nat × Nat := bs.foldl twoSumByte (0, 0)

theorem twoSums_append (bs : List Byte) (b : Byte) : twoSums (bs ++ [b]) = twoSumByte (twoSums bs) b := by
  unfold twoSums
  rw [List.foldl_append]
  rfl

theorem twoSums_lt (bs : List Byte) : (twoSums bs).1 < 255 ∧ (twoSums bs).2 < 255 := by
  induction bs using List.reverseRecOn with
  | nil => decide
  | append_singleton bs b ih =>
    rw [twoSums_append]
    exact ⟨Nat.mod_lt _ (by decide), Nat.mod_lt _ (by decide)⟩

theorem twoSum_toNat (bs : List Byte) : (twoSum bs).toNat = (twoSums bs).2 * 256 + (twoSums bs).1 := by
  obtain ⟨h1, h2⟩ := twoSums_lt bs
  show (BitVec.ofNat 16 ((twoSums bs).2 * 256 + (twoSums bs).1)).toNat = _
  rw [BitVec.toNat_ofNat, Nat.mod_eq_of_lt (by omega)]

theorem twoSum_split (bs : List Byte) :
    (twoSum bs).toNat % 256 = (twoSums bs).1 ∧ (twoSum bs).toNat / 256 = (twoSums bs).2 := by
  obtain ⟨h1, h2⟩ := twoSums_lt bs
  rw [twoSum_toNat]
  omega

theorem twoSum_append (bs : List Byte) (b : Byte) : twoSum (bs ++ [b]) =
    BitVec.ofNat 16 (((twoSum bs).toNat / 256 + ((twoSum bs).toNat % 256 + b.toNat) % 255) % 255 * 256
      + ((twoSum bs).toNat % 256 + b.toNat) % 255) := by
  obtain ⟨hfirst, hsecond⟩ := twoSum_split bs
  rw [hfirst, hsecond]
  show BitVec.ofNat 16 ((twoSums (bs ++ [b])).2 * 256 + (twoSums (bs ++ [b])).1) = _
  rw [twoSums_append]
  rfl

theorem twoSum_bytes_ne (bs : List Byte) : hiByte (twoSum bs) ≠ 0xFF ∧ loByte (twoSum bs) ≠ 0xFF := by
  obtain ⟨h1, h2⟩ := twoSums_lt bs
  obtain ⟨hfirst, hsecond⟩ := twoSum_split bs
  rw [hiByte_eq, loByte_eq, hsecond]
  constructor
  · intro h
    have := congrArg BitVec.toNat h
    rw [BitVec.toNat_ofNat, Nat.mod_eq_of_lt (by omega)] at this
    exact absurd this (Nat.ne_of_lt h2)
  · intro h
    have := congrArg BitVec.toNat h
    rw [BitVec.toNat_ofNat, hfirst] at this
    exact absurd this (Nat.ne_of_lt h1)

/-- The first sum is the sum of the bytes, modulo 255. -/
theorem twoSums_first (bs : List Byte) : (twoSums bs).1 = (bs.map BitVec.toNat).sum % 255 := by
  induction bs using List.reverseRecOn with
  | nil => rfl
  | append_singleton bs b ih =>
    rw [twoSums_append, List.map_append, List.sum_append]
    show ((twoSums bs).1 + b.toNat) % 255 = (_ + (b.toNat + 0)) % 255
    rw [ih]
    omega

/-- Two bytes are one modulo 255 only where they are 0 and 255. -/
theorem twoSum_ne (before after : List Byte) {a b : Byte} (hab : a ≠ b) (h0 : ¬ (a = 0 ∧ b = 255)) (h1 : ¬ (a = 255 ∧ b = 0)) :
    twoSum (before ++ [a] ++ after) ≠ twoSum (before ++ [b] ++ after) := by
  intro h
  have hfirst := (twoSum_split (before ++ [a] ++ after)).1
  rw [h, (twoSum_split _).1, twoSums_first, twoSums_first] at hfirst
  simp only [List.map_append, List.sum_append, List.map_cons, List.map_nil, List.sum_cons, List.sum_nil] at hfirst
  generalize (before.map BitVec.toNat).sum = p at hfirst
  generalize (after.map BitVec.toNat).sum = q at hfirst
  bv_omega

/-! ### The fingerprint (R4, R32) -/

theorem setWidth16_toNat (o : BitVec 13) : (o.setWidth 16).toNat = o.toNat := BitVec.toNat_setWidth_of_le (by decide)

/-- Settles O51: the key, the nine bytes in origin-first order, and the two-sum. -/
theorem halvesShareKeyAndFingerprint : Obligations.HalvesShareKeyAndFingerprint := by
  unfold Obligations.HalvesShareKeyAndFingerprint
  refine ⟨keyOf_toNat, fun c d o p => keyOf_injective, fun near away e f he hf hc h1 h2 h3 h4 h5 h6 => ?_, fun own e => ?_, rfl,
    twoSum_append, fun w => ⟨hiByte_eq w, loByte_eq w⟩, twoSum_bytes_ne, fun before after a b => twoSum_ne before after⟩
  · have hne : ¬ f.role = .origin := by rw [hf]; nofun
    unfold fingerprintOf fingerprintBytes
    rw [if_pos he, if_pos he, if_pos he, if_pos he, if_neg hne, if_neg hne, if_neg hne, if_neg hne, hc, h1, h2, h3, h4, h5, h6]
  · unfold fingerprintOf fingerprintBytes
    dsimp only
    rw [hiByte_eq, loByte_eq, hiByte_eq, loByte_eq, setWidth16_toNat]
    split <;> rfl

end Sys2Proof.Machine

/-! Bit stuffing, the CRC, the receipt field and arbitration (O12, O13). -/

namespace Sys2Proof.Machine

/-! ### Stuffing and its removal (R52, R53) -/

/-- The run of equal bits once one more bit stands on the line. -/
def runAfter (last : Bool) (run : Nat) (b : Bool) : Nat := if b = last then run + 1 else 1

section
variable {last b : Bool} {run : Nat} {bs : List Bool}

theorem stuffFrom_fifth (h : runAfter last run b = 5) :
    stuffFrom last run (b :: bs) = b :: (!b) :: stuffFrom (!b) 1 bs := if_pos h

theorem stuffFrom_other (h : runAfter last run b ≠ 5) :
    stuffFrom last run (b :: bs) = b :: stuffFrom b (runAfter last run b) bs := if_neg h

theorem destuffFrom_fifth {c : Bool} (h : runAfter last run b = 5) : destuffFrom last run (b :: c :: bs) =
    if c = b then none else (destuffFrom c 1 bs).map (b :: ·) := if_pos h

theorem destuffFrom_fifth_end (h : runAfter last run b = 5) : destuffFrom last run [b] = some [b] := if_pos h

theorem destuffFrom_other (h : runAfter last run b ≠ 5) : destuffFrom last run (b :: bs) =
    (destuffFrom b (runAfter last run b) bs).map (b :: ·) := by
  cases bs with
  | nil => exact if_neg h
  | cons c bs => exact if_neg h

end

theorem runAfter_le {last b : Bool} {run : Nat} (h : run < 5) : runAfter last run b ≤ 5 := by
  unfold runAfter
  split <;> omega

theorem not_ne_self (b : Bool) : ¬ (!b) = b := by
  cases b <;> decide

theorem destuffFrom_stuffFrom (last : Bool) (run : Nat) (bits : List Bool) :
    destuffFrom last run (stuffFrom last run bits) = some bits := by
  induction bits generalizing last run with
  | nil => rfl
  | cons b bs ih =>
    by_cases h : runAfter last run b = 5
    · rw [stuffFrom_fifth h, destuffFrom_fifth h, if_neg (not_ne_self b), ih]
      rfl
    · rw [stuffFrom_other h, destuffFrom_other h, ih]
      rfl

/-- Six equal bits stand in a row. -/
def SixEqual (bits : List Bool) : Prop := ∃ b, List.replicate 6 b <:+: bits

theorem sixEqual_iff (bits : List Bool) :
    SixEqual bits ↔ ∃ (before after : List Bool) (b : Bool), bits = before ++ [b, b, b, b, b, b] ++ after := by
  constructor
  · rintro ⟨b, before, after, h⟩
    exact ⟨before, after, b, h.symm⟩
  · rintro ⟨before, after, b, h⟩
    exact ⟨b, before, after, h.symm⟩

theorem not_sixEqual_of_length {bits : List Bool} (h : bits.length < 6) : ¬ SixEqual bits := by
  rintro ⟨b, hb⟩
  have := hb.length_le
  rw [List.length_replicate] at this
  omega

/-- A run that ends before its sixth bit has no part in six equal bits in a row. -/
theorem sixEqual_run {a b : Bool} (hab : b ≠ a) {n : Nat} (hn : n < 6) (bits : List Bool) :
    SixEqual (List.replicate n a ++ b :: bits) ↔ SixEqual (b :: bits) := by
  induction n with
  | zero => exact Iff.rfl
  | succ n ih =>
    rw [← ih (by omega)]
    refine ⟨?_, fun ⟨x, hx⟩ => ⟨x, List.infix_cons hx⟩⟩
    rintro ⟨x, hx⟩
    rw [show List.replicate (n + 1) a ++ b :: bits = a :: (List.replicate n a ++ b :: bits) from rfl] at hx
    rcases List.infix_cons_iff.1 hx with hpre | hin
    · have hget : ∀ i (hi : i < 6), (a :: (List.replicate n a ++ b :: bits))[i]? = some x := fun i hi => by
        rw [List.prefix_iff_getElem?.1 hpre i (by simpa using hi), List.getElem_replicate]
      have hfirst := hget 0 (by decide)
      have hend := hget (n + 1) (by omega)
      rw [List.getElem?_cons_zero] at hfirst
      rw [List.getElem?_cons_succ, List.getElem?_append_right (by simp), List.length_replicate, Nat.sub_self,
        List.getElem?_cons_zero] at hend
      exact absurd (Option.some.inj (hend.trans hfirst.symm)) hab
    · exact ⟨x, hin⟩

theorem replicate_append_cons (n : Nat) (b : Bool) (bits : List Bool) :
    List.replicate n b ++ b :: bits = List.replicate (n + 1) b ++ bits := by
  rw [List.replicate_succ', List.append_assoc]
  rfl

/-- A receiver meets a fault exactly where six equal bits stand in a row, the run that it is in among them (R53). -/
theorem destuffFrom_none (last : Bool) (run : Nat) (hrun : run < 5) (bits : List Bool) :
    destuffFrom last run bits = none ↔ SixEqual (List.replicate run last ++ bits) := by
  induction hlen : bits.length using Nat.strong_induction_on generalizing last run bits with
  | h n ih =>
    match bits with
    | [] =>
      refine ⟨nofun, fun h => absurd h (not_sixEqual_of_length ?_)⟩
      rw [List.append_nil, List.length_replicate]
      omega
    | b :: bs =>
      rw [List.length_cons] at hlen
      have shift : SixEqual (List.replicate run last ++ b :: bs) ↔
          SixEqual (List.replicate (runAfter last run b) b ++ bs) := by
        unfold runAfter
        split
        · next hb =>
          subst hb
          rw [replicate_append_cons]
        · next hb => exact sixEqual_run hb (by omega) bs
      have hle := runAfter_le (last := last) (b := b) hrun
      rw [shift]
      by_cases hr : runAfter last run b = 5
      · rw [hr]
        match bs with
        | [] =>
          rw [destuffFrom_fifth_end hr]
          exact ⟨nofun, fun h => absurd h (not_sixEqual_of_length (by simp))⟩
        | c :: rest =>
          rw [List.length_cons] at hlen
          rw [destuffFrom_fifth hr]
          by_cases hc : c = b
          · subst hc
            exact ⟨fun _ => ⟨c, [], rest, (replicate_append_cons 5 c rest).symm⟩, fun _ => if_pos rfl⟩
          · rw [if_neg hc, Option.map_eq_none_iff, ih rest.length (by omega) c 1 (by decide) rest rfl]
            exact (sixEqual_run hc (by decide) rest).symm
      · rw [destuffFrom_other hr, Option.map_eq_none_iff, ih bs.length (by omega) b _ (by omega) bs rfl]

theorem destuff_none_iff (bits : List Bool) : destuffFrom true 0 bits = none ↔ SixEqual bits :=
  destuffFrom_none true 0 (by decide) bits

theorem lineBits_not_sixEqual (f : Frame) : ¬ SixEqual (lineBits f) := fun h => by
  have hn := (destuff_none_iff _).2 h
  unfold lineBits at hn
  rw [destuffFrom_stuffFrom] at hn
  cases hn

/-! ### Lengths (R58) -/

theorem byteBits_eq (b : Byte) : byteBits b =
    [b.getLsbD 7, b.getLsbD 6, b.getLsbD 5, b.getLsbD 4, b.getLsbD 3, b.getLsbD 2, b.getLsbD 1, b.getLsbD 0] := rfl

theorem flatMap_byteBits_length (bs : List Byte) : (bs.flatMap byteBits).length = 8 * bs.length := by
  induction bs with
  | nil => rfl
  | cons b bs ih =>
    rw [List.flatMap_cons, List.length_append, ih, List.length_cons, byteBits_eq]
    simp only [List.length_cons, List.length_nil]
    omega

theorem plainBits_length (f : Frame) : (plainBits f).length = 1 + 8 * ((frameBytes f).length + 2) := by
  unfold plainBits
  dsimp only
  rw [List.length_cons, flatMap_byteBits_length, List.length_append]
  simp only [List.length_cons, List.length_nil]
  omega

/-- After a stuff bit four more equal bits bring the next one. -/
theorem stuffFrom_length (last : Bool) (run : Nat) (bits : List Bool) (hlo : 1 ≤ run) (hhi : run ≤ 4) :
    (stuffFrom last run bits).length ≤ bits.length + (bits.length + run - 1) / 4 := by
  induction bits generalizing last run with
  | nil => exact Nat.zero_le _
  | cons b bs ih =>
    have hr : runAfter last run b = run + 1 ∨ runAfter last run b = 1 := by
      unfold runAfter
      split
      · exact .inl rfl
      · exact .inr rfl
    by_cases h : runAfter last run b = 5
    · have := ih (!b) 1 le_rfl (by decide)
      rw [stuffFrom_fifth h]
      simp only [List.length_cons]
      omega
    · have := ih b (runAfter last run b) (by omega) (by omega)
      rw [stuffFrom_other h]
      simp only [List.length_cons]
      omega

theorem lineBits_length (f : Frame) :
    (lineBits f).length ≤ (plainBits f).length + (1 + ((plainBits f).length - 5) / 4) := by
  have hlen := plainBits_length f
  have hstart : lineBits f = false :: stuffFrom false 1 ((frameBytes f
      ++ [hiByte (crc16 (frameBytes f)), loByte (crc16 (frameBytes f))]).flatMap byteBits) := rfl
  have hplain : plainBits f = false :: (frameBytes f
      ++ [hiByte (crc16 (frameBytes f)), loByte (crc16 (frameBytes f))]).flatMap byteBits := rfl
  generalize (frameBytes f ++ [hiByte (crc16 (frameBytes f)), loByte (crc16 (frameBytes f))]).flatMap byteBits = bits
    at hstart hplain
  have hbound := stuffFrom_length false 1 bits le_rfl (by decide)
  rw [hplain, List.length_cons] at hlen ⊢
  rw [hstart, List.length_cons]
  omega

/-! ### The CRC (R59) -/

theorem crcBit_eq (c : BitVec 16) (bit : Bool) :
    crcBit c bit = if c.getLsbD 15 = bit then c <<< 1 else (c <<< 1) ^^^ 0x1021 := by
  unfold crcBit
  rw [BitVec.msb_eq_getLsbD_last]
  cases c.getLsbD (16 - 1) <;> cases bit <;> rfl

theorem crc16_append (bs : List Byte) (b : Byte) : crc16 (bs ++ [b]) = (byteBits b).foldl crcBit (crc16 bs) := by
  unfold crc16
  rw [List.flatMap_append, List.foldl_append, List.flatMap_singleton]

theorem crc16_append_places (bs : List Byte) (b : Byte) : crc16 (bs ++ [b]) = [7, 6, 5, 4, 3, 2, 1, 0].foldl
    (fun (c : BitVec 16) place => if c.getLsbD 15 = b.getLsbD place then c <<< 1 else (c <<< 1) ^^^ 0x1021)
    (crc16 bs) := by
  rw [crc16_append, show byteBits b = [7, 6, 5, 4, 3, 2, 1, 0].map b.getLsbD from rfl, List.foldl_map]
  simp only [crcBit_eq]

/-- One byte through the CRC register. -/
def crcByte (c : BitVec 16) (b : Byte) : BitVec 16 := (byteBits b).foldl crcBit c

theorem crc16_eq (bs : List Byte) : crc16 bs = bs.foldl crcByte 0xFFFF := by
  unfold crc16
  rw [List.foldl_flatMap]
  rfl

theorem crc16_check : crc16 [0x31, 0x32, 0x33, 0x34, 0x35, 0x36, 0x37, 0x38, 0x39] = 0x29B1 := by
  have h1 : crcByte 0xFFFF 0x31 = 0xC782 := by decide
  have h2 : crcByte 0xC782 0x32 = 0x3DBA := by decide
  have h3 : crcByte 0x3DBA 0x33 = 0x5BCE := by decide
  have h4 : crcByte 0x5BCE 0x34 = 0x5349 := by decide
  have h5 : crcByte 0x5349 0x35 = 0x4560 := by decide
  have h6 : crcByte 0x4560 0x36 = 0x2EF4 := by decide
  have h7 : crcByte 0x2EF4 0x37 = 0x7718 := by decide
  have h8 : crcByte 0x7718 0x38 = 0xA12B := by decide
  have h9 : crcByte 0xA12B 0x39 = 0x29B1 := by decide
  rw [crc16_eq, List.foldl_cons, h1, List.foldl_cons, h2, List.foldl_cons, h3, List.foldl_cons, h4, List.foldl_cons, h5,
    List.foldl_cons, h6, List.foldl_cons, h7, List.foldl_cons, h8, List.foldl_cons, h9, List.foldl_nil]

/-- Settles O12: stuffing and its removal, lengths, the CRC bit by bit, and the receipt field. -/
theorem stuffingCrcAndReceipt : Obligations.StuffingCrcAndReceipt := by
  unfold Obligations.StuffingCrcAndReceipt
  refine ⟨destuffFrom_stuffFrom true 0, fun bits => (destuff_none_iff bits).trans (sixEqual_iff bits),
    fun f before after b h => lineBits_not_sixEqual f ((sixEqual_iff _).2 ⟨before, after, b, h⟩), rfl, fun bits => ?_,
    fun f => ⟨plainBits_length f, ?_⟩, fun f => destuffFrom_stuffFrom true 0 (plainBits f), rfl, crc16_append_places,
    crc16_check, fun r => ?_, rfl, rfl⟩
  · rw [destuff_none_iff]
    exact (sixEqual_iff _).2 ⟨bits, [], false, by rw [List.append_nil]; rfl⟩
  · have h := lineBits_length f
    rw [plainBits_length] at h
    exact h
  · cases r with
    | none => rfl
    | some r => cases r <;> rfl

/-! ### Bits as a number -/

/-- The number that bits spell, the most significant first. -/
def numOf : List Bool → Nat
  | [] => 0
  | b :: bs => (if b then 2 ^ bs.length else 0) + numOf bs

theorem numOf_lt (bits : List Bool) : numOf bits < 2 ^ bits.length := by
  induction bits with
  | nil => decide
  | cons b bs ih =>
    rw [List.length_cons, Nat.pow_succ]
    unfold numOf
    split <;> omega

theorem numOf_append (l m : List Bool) : numOf (l ++ m) = numOf l * 2 ^ m.length + numOf m := by
  induction l with
  | nil => simp [numOf]
  | cons b l ih =>
    rw [List.cons_append, numOf, numOf, ih, List.length_append, Nat.pow_add, Nat.add_mul, Nat.add_assoc]
    split
    · rfl
    · rw [Nat.zero_mul]

/-- The lower of two numbers of one length is dominant where they first differ. -/
theorem exists_first_difference {l m : List Bool} (hlen : l.length = m.length) (h : numOf l < numOf m) :
    ∃ p u v, l = p ++ false :: u ∧ m = p ++ true :: v := by
  induction l generalizing m with
  | nil =>
    match m with
    | [] => exact absurd h (by decide)
  | cons a l ih =>
    match m with
    | b :: m =>
      have hlm : l.length = m.length := Nat.succ.inj hlen
      have hl := numOf_lt l
      have hm := numOf_lt m
      unfold numOf at h
      rw [hlm] at h hl
      match a, b with
      | false, true => exact ⟨[], l, m, rfl, rfl⟩
      | true, false =>
        rw [if_pos rfl, if_neg (by decide)] at h
        omega
      | false, false =>
        obtain ⟨p, u, v, rfl, rfl⟩ := ih hlm (by simpa using h)
        exact ⟨false :: p, u, v, rfl, rfl⟩
      | true, true =>
        obtain ⟨p, u, v, rfl, rfl⟩ := ih hlm (by simpa using h)
        exact ⟨true :: p, u, v, rfl, rfl⟩

/-- A number below 256 from its binary places. -/
theorem sum_places {n : Nat} (h : n < 256) : n / 2 ^ 7 % 2 * 2 ^ 7 + (n / 2 ^ 6 % 2 * 2 ^ 6 + (n / 2 ^ 5 % 2 * 2 ^ 5
    + (n / 2 ^ 4 % 2 * 2 ^ 4 + (n / 2 ^ 3 % 2 * 2 ^ 3 + (n / 2 ^ 2 % 2 * 2 ^ 2 + (n / 2 ^ 1 % 2 * 2 ^ 1
    + (n / 2 ^ 0 % 2 * 2 ^ 0 + 0))))))) = n := by
  have halve : ∀ i, n / 2 ^ (i + 1) = n / 2 ^ i / 2 := fun i => by rw [Nat.pow_succ, Nat.div_div_eq_div_mul]
  have split : ∀ i, n / 2 ^ i = 2 * (n / 2 ^ (i + 1)) + n / 2 ^ i % 2 := fun i => by rw [halve]; omega
  have h0 : n = n / 2 ^ 0 := by simp
  have h8 : n / 2 ^ 8 = 0 := Nat.div_eq_of_lt h
  have h1 := split 0
  have h2 := split 1
  have h3 := split 2
  have h4 := split 3
  have h5 := split 4
  have h6 := split 5
  have h7 := split 6
  have h8' := split 7
  rw [h8] at h8'
  generalize n / 2 ^ 7 = x7 at *
  generalize n / 2 ^ 6 = x6 at *
  generalize n / 2 ^ 5 = x5 at *
  generalize n / 2 ^ 4 = x4 at *
  generalize n / 2 ^ 3 = x3 at *
  generalize n / 2 ^ 2 = x2 at *
  generalize n / 2 ^ 1 = x1 at *
  generalize n / 2 ^ 0 = x0 at *
  omega

theorem numOf_byteBits (b : Byte) : numOf (byteBits b) = b.toNat := by
  have hb := b.isLt
  have place : ∀ i k : Nat, (if b.getLsbD i then k else 0) = b.toNat / 2 ^ i % 2 * k := fun i k => by
    rw [BitVec.getLsbD, Nat.testBit_eq_decide_div_mod_eq]
    rcases Nat.mod_two_eq_zero_or_one (b.toNat / 2 ^ i) with h | h <;> simp [h]
  rw [byteBits_eq]
  simp only [numOf, place, List.length_cons, List.length_nil]
  exact sum_places hb

theorem numOf_flatMap (bs : List Byte) : numOf (bs.flatMap byteBits) = natOfBytes bs := by
  induction bs using List.reverseRecOn with
  | nil => rfl
  | append_singleton bs b ih =>
    rw [List.flatMap_append, List.flatMap_singleton, numOf_append, numOf_byteBits, ih]
    have h8 : (byteBits b).length = 8 := by rw [byteBits_eq]; rfl
    rw [h8, show (2 : Nat) ^ 8 = 256 by decide]
    unfold natOfBytes
    rw [List.foldl_append, List.foldl_cons, List.foldl_nil]

/-! ### Arbitration (R61) -/

theorem losesTo_cons (b : Bool) (as bs : List Bool) : losesTo (b :: as) (b :: bs) = losesTo as bs := if_pos rfl

theorem stuffFrom_head (last : Bool) (run : Nat) (b : Bool) (bs : List Bool) :
    ∃ rest, stuffFrom last run (b :: bs) = b :: rest := by
  by_cases h : runAfter last run b = 5
  · exact ⟨_, stuffFrom_fifth h⟩
  · exact ⟨_, stuffFrom_other h⟩

/-- Two stations that send the same bits up to a place, and there one recessive and the other dominant, stuff them alike
up to that place, so the recessive one loses. -/
theorem losesTo_stuffFrom (last : Bool) (run : Nat) (p u v : List Bool) :
    losesTo (stuffFrom last run (p ++ true :: v)) (stuffFrom last run (p ++ false :: u)) = true ∧
      losesTo (stuffFrom last run (p ++ false :: u)) (stuffFrom last run (p ++ true :: v)) = false := by
  induction p generalizing last run with
  | nil =>
    obtain ⟨x, hx⟩ := stuffFrom_head last run true v
    obtain ⟨y, hy⟩ := stuffFrom_head last run false u
    rw [List.nil_append, List.nil_append, hx, hy]
    exact ⟨rfl, rfl⟩
  | cons b p ih =>
    rw [List.cons_append, List.cons_append]
    by_cases h : runAfter last run b = 5
    · rw [stuffFrom_fifth h, stuffFrom_fifth h, losesTo_cons, losesTo_cons, losesTo_cons, losesTo_cons]
      exact ih _ _
    · rw [stuffFrom_other h, stuffFrom_other h, losesTo_cons, losesTo_cons]
      exact ih _ _

/-- The stuffed part begins with the start bit and the arbitration field. -/
theorem plainBits_arbitration (f : Frame) : ∃ rest, plainBits f = arbitrationBits f ++ rest := by
  unfold plainBits arbitrationBits
  dsimp only
  refine ⟨((frameBytes f).drop 4 ++ [hiByte (crc16 (frameBytes f)), loByte (crc16 (frameBytes f))]).flatMap byteBits, ?_⟩
  rw [List.cons_append, ← List.flatMap_append, ← List.append_assoc, List.take_append_drop]

theorem arbitrationField_eq (f : Frame) : arbitrationField f =
    (kindCode f.body).toNat * 16777216 + (headerKey f.body).toNat * 256 + f.source.toNat := by
  have hkey := (headerKey f.body).isLt
  have hbytes : arbitrationField f = natOfBytes
      [kindCode f.body, hiByte (headerKey f.body), loByte (headerKey f.body), slotByte f.source] := rfl
  have hsource : (slotByte f.source).toNat = f.source.toNat := BitVec.toNat_setWidth_of_le (by decide)
  rw [hbytes, hiByte_eq, loByte_eq]
  simp only [natOfBytes, List.foldl_cons, List.foldl_nil, BitVec.toNat_ofNat, hsource]
  omega

/-- Settles O13: the first differing bit of the arbitration field decides, after stuffing as before. -/
theorem lowestArbitrationFieldWins : Obligations.LowestArbitrationFieldWins := by
  unfold Obligations.LowestArbitrationFieldWins
  refine ⟨fun f g _ _ h => ?_, arbitrationField_eq, ⟨fun _ => rfl, fun _ => rfl, fun _ => rfl, fun _ => ⟨rfl, rfl⟩,
    fun _ => ⟨rfl, rfl⟩, fun _ => rfl, fun _ => rfl, fun _ => rfl⟩, fun f g hne h => ?_⟩
  · obtain ⟨restf, hf⟩ := plainBits_arbitration f
    obtain ⟨restg, hg⟩ := plainBits_arbitration g
    unfold arbitrationField at h
    rw [← numOf_flatMap, ← numOf_flatMap] at h
    obtain ⟨p, u, v, hu, hv⟩ := exists_first_difference
      (by rw [flatMap_byteBits_length, flatMap_byteBits_length]; rfl) h
    have hfbits : plainBits f = (false :: p) ++ false :: (u ++ restf) := by
      rw [hf, arbitrationBits, hu]
      simp only [List.cons_append, List.append_assoc]
    have hgbits : plainBits g = (false :: p) ++ true :: (v ++ restg) := by
      rw [hg, arbitrationBits, hv]
      simp only [List.cons_append, List.append_assoc]
    unfold lineBits
    rw [hfbits, hgbits]
    exact losesTo_stuffFrom true 0 (false :: p) (u ++ restf) (v ++ restg)
  · have hfs := f.source.isLt
    have hgs := g.source.isLt
    rw [arbitrationField_eq, arbitrationField_eq] at h
    exact hne (BitVec.eq_of_toNat_eq (by omega))

end Sys2Proof.Machine
